-- ==== Sys2Proof/Word.lean ====
section
/-! DEFINITION. The byte, the one width every access of this hardware has (R53, R57). -/

namespace Sys2Proof

/-- A byte: 8 bits, bit 7 the most significant (R12). -/
abbrev Byte := BitVec 8

end Sys2Proof
end

