-- ==== Sys2Proof/Config.lean ====
section
/-! DEFINITION. What an implementation fixes (the parameters of R9 and R10, as one record), the agents of
the schedule, and the free values: constants without a body, of which nothing can be proved. -/

namespace Sys2Proof

/-- The kind tag of an erasable block; "no rule reads it" (R9). -/
inductive BlockKind where
  | mainBlock
  | bootBlock
deriving DecidableEq, Repr, Inhabited

/-- A handle of the PERIPH space (R58, R10); D0 gives none of the addresses, a number only names it (log 31). -/
abbrev Handle := Nat

/-- An external-bus line state, an element of `EXTBUS_PATTERN` (R164): one byte, as every PERIPH access (R58). -/
abbrev LineState := Byte

/-! ### The defaults of R161 -/

/-- The default `DB_PERM` of R161: bit `3 - i` of the result is bit `i` of `v` for the low nibble, the high nibble 0. -/
def defaultDbPerm (v : Byte) : Byte :=
  (if v.getLsbD 0 then 0x08 else 0) ||| (if v.getLsbD 1 then 0x04 else 0) |||
  (if v.getLsbD 2 then 0x02 else 0) ||| (if v.getLsbD 3 then 0x01 else 0)

/-- The default `DB_PERM` as the table a configuration holds. -/
def defaultDbPermTable : List Byte := (List.range 256).map (fun v => defaultDbPerm (BitVec.ofNat 8 v))

/-- The default `DB_CMP_MASK` of R161. -/
def defaultDbCmpMask : Byte := 0x0F

/-! ### The parameters -/

/-- The parameters of R9 (flash device) and R10 (sequencer). `BlockOffset`, `crc8`, `DB_PERM`, `KEY_IMM`, ... are
tables, not functions, so that a configuration is plain data (log 5). `dbPerm` and `dbCmpMask` have the defaults R161
gives them; every other default value is not the board's and only shows that R9's constraints can be met (log 4). -/
structure Params where
  flashSize : Nat := 0x1000
  addrW : Nat := 12
  numBlocks : Nat := 1
  blockOffset : List Nat := [0]
  blockSize : List Nat := [1]
  blockKind : List BlockKind := [.mainBlock]
  manufacturer : Byte := 0
  deviceCode : Byte := 0
  idMfrOffset : Nat := 0
  idDevOffset : Nat := 1
  pollBound : Nat := 1
  dq3Bound : Nat := 1
  bufMax : Nat := 0
  errorDisplayTicks : Nat := 0
  versionExpected : Byte := 0
  versionReg : Handle := 0
  extSettingsReg : Handle := 1
  initReg : Handle := 2
  aliasReg : List Handle := [3, 4, 5, 6]
  aliasSentinel : List Byte := [0, 1, 2, 3]
  dbWrReg : Handle := 7
  dbRdReg : Handle := 8
  dbPerm : List Byte := defaultDbPermTable
  dbCmpMask : Byte := defaultDbCmpMask
  ramBase : Nat := 0x100
  ramLen : Nat := 0
  tworamTicks : Nat := 0
  keyImm : List Byte := []
  keyDel : List Byte := []
  extbusPattern : List LineState := []
  wdtLocation : Handle := 9
  outInvert : Byte := 0
  tickRate : Nat := 1
  crc8 : List Byte := List.replicate 256 0
deriving DecidableEq, Repr, Inhabited

/-- The window can hold the command offsets and every offset fits its register (R9, rows 1 and 2). -/
abbrev Params.windowOk (p : Params) : Prop :=
  0xAAA < p.flashSize ∧ p.flashSize ≤ 2 ^ p.addrW ∧ 12 ≤ p.addrW

/-- The block table: 1 to 256 blocks, each inside the window, pairwise disjoint (R9, rows 3 to 6). -/
abbrev Params.blocksOk (p : Params) : Prop :=
  1 ≤ p.numBlocks ∧ p.numBlocks ≤ 256 ∧ p.blockOffset.length = p.numBlocks ∧
  p.blockSize.length = p.numBlocks ∧ p.blockKind.length = p.numBlocks ∧
  (∀ i < p.numBlocks, p.blockOffset.getD i 0 < p.flashSize ∧
    p.blockOffset.getD i 0 + p.blockSize.getD i 0 ≤ p.flashSize) ∧
  (∀ i < p.numBlocks, ∀ j < p.numBlocks, i ≠ j →
    p.blockSize.getD i 0 = 0 ∨ p.blockSize.getD j 0 = 0 ∨
    p.blockOffset.getD i 0 + p.blockSize.getD i 0 ≤ p.blockOffset.getD j 0 ∨
    p.blockOffset.getD j 0 + p.blockSize.getD j 0 ≤ p.blockOffset.getD i 0)

/-- The identity offsets and the bounds (R9, rows 9 to 12). -/
abbrev Params.boundsOk (p : Params) : Prop :=
  p.idMfrOffset < p.flashSize ∧ p.idDevOffset < p.flashSize ∧ p.idMfrOffset ≠ p.idDevOffset ∧
  1 ≤ p.pollBound ∧ 1 ≤ p.dq3Bound ∧ p.bufMax ≤ 65535

/-- The tables of R10 have the length their index ranges over; the four sentinels are pairwise distinct. -/
abbrev Params.tablesOk (p : Params) : Prop :=
  p.aliasReg.length = 4 ∧ p.aliasSentinel.length = 4 ∧ p.aliasSentinel.Nodup ∧
  p.dbPerm.length = 256 ∧ p.crc8.length = 256 ∧
  p.keyImm.length = p.tworamTicks ∧ p.keyDel.length = p.tworamTicks

/-- The constraints of R9's last column (and the lengths of R10's tables). "No rule is defined" where one is broken
(93_implementation_defined.md U13: refuse the configuration). -/
def Params.wf (p : Params) : Bool :=
  decide p.windowOk && decide p.blocksOk && decide p.boundsOk && decide p.tablesOk

/-- A configuration: parameters together with the proof that they meet R9. A configuration that breaks R9 cannot be
built, which is how U13's "refuse" is met. -/
structure Cfg extends Params where
  ok : toParams.wf = true := by decide +kernel
deriving DecidableEq, Repr, Inhabited

/-- Refuse a parameter record that breaks R9 (U13). -/
def Cfg.ofParams? (p : Params) : Option Cfg := if h : p.wf = true then some ⟨p, h⟩ else none

/-- The agents a turn may belong to (R6): the core (FCE while it is busy, else SEQ), TICK, a requester other than
SEQ (R25, R234), and the reset line (R203, R231). DEV and PERIPH move inside the access that reaches them. -/
inductive Agent where
  | core
  | tick
  | bench
  | resetLine
deriving DecidableEq, Repr, Inhabited

namespace Config

/-- The machine's own parameters: D0 gives no value for any (R9, R10, D2), so nothing is known of them but R9. -/
opaque machine : Cfg

/-- The byte DEV answers to the n-th draw: "a free input" (R62). -/
opaque freeDevByte : Nat → Byte

/-- The byte a window load returns while the window is disabled: "any value" (R59, U4). -/
opaque freeClosedByte : Nat → Byte

/-- The byte PERIPH answers to the n-th draw: "an oracle value" (R58). -/
opaque freePeriphByte : Nat → Byte

/-- What the `addr` register holds after a request whose address operand is wider than the register: R90 encodes no such
operand, vector P-1 presents one, and neither says what is latched (log 42). -/
opaque freeAddr : Nat → Nat

/-- Whose turn the n-th draw gives: the schedule is a parameter of the step relation (R37, U14, U17). -/
opaque freeAgent : Nat → Agent

end Config
end Sys2Proof
end

