-- ==== Sys2Proof/Syntax.lean ====
section
/-! DEFINITION. The instructions: one constructor for each row of spec/opcode_table.json, in its order. -/

namespace Sys2Proof

/-- The operands a `Start` presents beside the opcode (R90 REQ, R25): all four are latched (R121), whichever the
operation reads (R100). -/
structure Operands where
  blk : Byte
  addr : Nat
  val : Byte
  len : BitVec 16
deriving DecidableEq, Repr, Inhabited

/-- The rows of the opcode table. -/
inductive Instr where
  /-- REQ 0x01 (R128). -/
  | identify (o : Operands)
  /-- REQ 0x02 (R129). -/
  | eraseBlock (o : Operands)
  /-- REQ 0x03 (R130). -/
  | programByte (o : Operands)
  /-- REQ 0x04 (R131). -/
  | programBuffer (o : Operands)
  /-- REQ 0x05 (R132). -/
  | read (o : Operands)
  /-- REQ 0x06 (R133). -/
  | reset (o : Operands)
  /-- REQ 0x00 and 0x07 to 0xFF (R106). -/
  | reservedRequest (op : Byte) (o : Operands)
  /-- CYC, 3 cycles (R92). -/
  | seqAutoselect
  /-- CYC, 3 cycles (R93). -/
  | seqReset
  /-- CYC, 4 cycles (R94); the fourth stores `value` at `address`. -/
  | seqProgram (address : Nat) (value : Byte)
  /-- CYC, 6 cycles (R95); the sixth stores 0x30 at `offset`, the block's offset. -/
  | seqBlockErase (offset : Nat)
  /-- TID 0, the table's `Error` (R165). -/
  | testError
  /-- TID 1 (R158). -/
  | soutBus
  /-- TID 2 (R159). -/
  | plisRegisters
  /-- TID 3 (R160). -/
  | dataBus
  /-- TID 4 (R162). -/
  | fram
  /-- TID 5 (R163). -/
  | twoRam
  /-- TID 6 (R164). -/
  | extBus
  /-- TID 7 (R108). -/
  | reservedTestId
deriving DecidableEq, Repr

end Sys2Proof
end

