-- ==== Sys2Proof/WellFormed.lean ====
section
/-! DEFINITION. Which instructions the encodings admit under a configuration. An operand that an operation answers
with a result code (R107: a bad block, a bad address) is well formed: it is encodable and has a meaning. -/

namespace Sys2Proof

/-- The address operand fits the `ADDR_W` bits of the request (R90, R22). -/
def Operands.fits (c : Params) (o : Operands) : Bool := decide (o.addr < 2 ^ c.addrW)

/-- An opcode R106 reserves: 0x00 and 0x07 to 0xFF. -/
def reservedOpcode (op : Byte) : Bool := op.toNat == 0 || decide (7 ≤ op.toNat)

/-- Well-formedness: what R90, R94, R95 and R106 ask of the fields. -/
def Instr.wellFormed (c : Params) : Instr → Bool
  | .identify o => o.fits c
  | .eraseBlock o => o.fits c
  | .programByte o => o.fits c
  | .programBuffer o => o.fits c
  | .read o => o.fits c
  | .reset o => o.fits c
  | .reservedRequest op o => reservedOpcode op && o.fits c
  | .seqAutoselect => true
  | .seqReset => true
  | .seqProgram address _ => decide (address < c.flashSize)
  | .seqBlockErase offset => c.blockOffset.contains offset
  | .testError => true
  | .soutBus => true
  | .plisRegisters => true
  | .dataBus => true
  | .fram => true
  | .twoRam => true
  | .extBus => true
  | .reservedTestId => true

end Sys2Proof
end

