-- ==== Sys2Proof/Decode.lean ====
section
/-! DEFINITION. The three formats of R90, their decoder (total, rejecting by name) and, after it, their encoder.
There is no byte stream of instructions: a request is a tuple presented at once, a wire command is a list of store
cycles, a state is a 3-bit code; the decoder reads these carriers. -/

namespace Sys2Proof

/-- One store cycle of a wire command: the pair (offset, byte) of R90. -/
structure Cycle where
  offset : Nat
  byte : Byte
deriving DecidableEq, Repr, Inhabited

/-- An encoded instruction, one constructor for each format of R90. -/
inductive Encoded where
  | req (op : Byte) (o : Operands)
  | cyc (cycles : List Cycle)
  | tid (code : BitVec 3)
deriving DecidableEq, Repr

/-- Why a list of store cycles spells no command of R92 to R95. -/
inductive DecodeError where
  /-- Not 3, 4 or 6 cycles (R110). -/
  | badLength
  /-- An unlock pair (R91) is missing. -/
  | badUnlock
  /-- The command byte, or the confirm byte of an erase, is none of R96. -/
  | unknownCommand
deriving DecidableEq, Repr

/-! ### Decoder -/

/-- REQ: all eight bits of the opcode are decoded (R100); every other value is reserved (R106). -/
def decodeReq (op : Byte) (o : Operands) : Instr :=
  match op.toNat with
  | 0x01 => .identify o
  | 0x02 => .eraseBlock o
  | 0x03 => .programByte o
  | 0x04 => .programBuffer o
  | 0x05 => .read o
  | 0x06 => .reset o
  | _ => .reservedRequest op o

/-- TID: the codes of R102, and the reserved code of R108. -/
def decodeTid (code : BitVec 3) : Instr :=
  match code.toNat with
  | 0 => .testError
  | 1 => .soutBus
  | 2 => .plisRegisters
  | 3 => .dataBus
  | 4 => .fram
  | 5 => .twoRam
  | 6 => .extBus
  | _ => .reservedTestId

/-- The unlock pair of R91. -/
def isUnlock (c1 c2 : Cycle) : Bool := c1 == ⟨0xAAA, 0xAA⟩ && c2 == ⟨0x555, 0x55⟩

/-- CYC: "every cycle exact" (R68, R92 to R95). -/
def decodeCyc : List Cycle → Except DecodeError Instr
  | [c1, c2, c3] =>
    if isUnlock c1 c2 then
      if c3 = ⟨0xAAA, 0x90⟩ then .ok .seqAutoselect
      else if c3 = ⟨0xAAA, 0xF0⟩ then .ok .seqReset
      else .error .unknownCommand
    else .error .badUnlock
  | [c1, c2, c3, c4] =>
    if isUnlock c1 c2 then
      if c3 = ⟨0xAAA, 0xA0⟩ then .ok (.seqProgram c4.offset c4.byte) else .error .unknownCommand
    else .error .badUnlock
  | [c1, c2, c3, c4, c5, c6] =>
    if isUnlock c1 c2 && isUnlock c4 c5 then
      if c3 = ⟨0xAAA, 0x80⟩ ∧ c6.byte = 0x30 then .ok (.seqBlockErase c6.offset)
      else .error .unknownCommand
    else .error .badUnlock
  | _ => .error .badLength

/-- The decoder. -/
def decode : Encoded → Except DecodeError Instr
  | .req op o => .ok (decodeReq op o)
  | .cyc cs => decodeCyc cs
  | .tid code => .ok (decodeTid code)

/-! ### Encoder -/

/-- The unlock pair every command begins with (R91). -/
def unlockPair : List Cycle := [⟨0xAAA, 0xAA⟩, ⟨0x555, 0x55⟩]

/-- The encoder, written from R92 to R95, R100 and R102. -/
def encode : Instr → Encoded
  | .identify o => .req 0x01 o
  | .eraseBlock o => .req 0x02 o
  | .programByte o => .req 0x03 o
  | .programBuffer o => .req 0x04 o
  | .read o => .req 0x05 o
  | .reset o => .req 0x06 o
  | .reservedRequest op o => .req op o
  | .seqAutoselect => .cyc (unlockPair ++ [⟨0xAAA, 0x90⟩])
  | .seqReset => .cyc (unlockPair ++ [⟨0xAAA, 0xF0⟩])
  | .seqProgram address value => .cyc (unlockPair ++ [⟨0xAAA, 0xA0⟩, ⟨address, value⟩])
  | .seqBlockErase offset => .cyc (unlockPair ++ [⟨0xAAA, 0x80⟩] ++ unlockPair ++ [⟨offset, 0x30⟩])
  | .testError => .tid 0
  | .soutBus => .tid 1
  | .plisRegisters => .tid 2
  | .dataBus => .tid 3
  | .fram => .tid 4
  | .twoRam => .tid 5
  | .extBus => .tid 6
  | .reservedTestId => .tid 7

/-! ### The opcode table's numbering -/

/-- Cycle `n` of a command numbered as 24-bit words, offset in bits 15..0 and byte in bits 23..16 (log 2). -/
def cycleOfTable (w n : Nat) : Cycle :=
  ⟨w / 2 ^ (24 * n) % 2 ^ 16, BitVec.ofNat 8 (w / 2 ^ (24 * n + 16))⟩

/-- The request tuple of a number: op in bits 7..0, blk in 15..8, val in 23..16, len in 39..24, addr above (log 2). -/
def reqOfTable (w : Nat) : Encoded :=
  .req (BitVec.ofNat 8 w)
    { blk := BitVec.ofNat 8 (w / 2 ^ 8), addr := w / 2 ^ 40,
      val := BitVec.ofNat 8 (w / 2 ^ 16), len := BitVec.ofNat 16 (w / 2 ^ 24) }

/-- The carrier a table word stands for: fewer than 8 bits are a TID code; 72, 96 and 144 bits are the cycles of a
CYC row; everything else is a request (log 2: at 8 bits REQ and TID rows have the same words, and REQ is taken). -/
def encodedOfTable (nbits w : Nat) : Encoded :=
  if nbits < 8 then .tid (BitVec.ofNat 3 w)
  else if nbits = 72 ∨ nbits = 96 ∨ nbits = 144 then .cyc ((List.range (nbits / 24)).map (cycleOfTable w))
  else reqOfTable w

/-- The instruction the decoder reads from a word of the opcode table. -/
def decodeTableWord (nbits w : Nat) : Option Instr :=
  match decode (encodedOfTable nbits w) with
  | .ok i => some i
  | .error _ => none

end Sys2Proof
end

