-- ==== Sys2Proof/Machine/Memory.lean ====
section
/-! DEFINITION. A space of bytes as a canonical list of (address, byte) pairs: the program buffer, the array of the
reference device, the cells of the reference PERIPH. Every access is one byte (R53, R57). -/

namespace Sys2Proof.Machine

/-- A byte space: addresses strictly rising, no entry equal to what an unlisted address reads as. -/
abbrev Memory := List Host.Cell

namespace Memory

/-- What an address that is not listed reads as: the erased value 0xFF (log 12). -/
def unlisted : Byte := 0xFF

/-- The canonical form. -/
abbrev wf (m : Memory) : Prop :=
  m.Pairwise (fun x y => x.1 < y.1) ∧ ∀ c ∈ m, c.2 ≠ unlisted

/-- The byte at address `a`. -/
def read (m : Memory) (a : Nat) : Byte :=
  match m with
  | [] => unlisted
  | c :: rest => if c.1 = a then c.2 else read rest a

/-- Remove the entry of address `a`. -/
def drop (m : Memory) (a : Nat) : Memory := m.filter (fun c => decide (c.1 ≠ a))

/-- List `d` at `a`, keeping the addresses rising; replaces an entry of `a`. -/
def insert (m : Memory) (a : Nat) (d : Byte) : Memory :=
  match m with
  | [] => [(a, d)]
  | c :: rest =>
    if c.1 < a then c :: insert rest a d
    else if c.1 = a then (a, d) :: rest
    else (a, d) :: c :: rest

/-- Store `d` at `a`; storing what an unlisted address reads as removes the entry. -/
def write (m : Memory) (a : Nat) (d : Byte) : Memory :=
  if d = unlisted then drop m a else insert m a d

/-- Set `len` bytes from `base` to the erased value: what unlisted addresses read as, so their entries go (R66, R78). -/
def erase (m : Memory) (base len : Nat) : Memory :=
  m.filter (fun c => decide (¬ (base ≤ c.1 ∧ c.1 < base + len)))

end Memory
end Sys2Proof.Machine
end

