-- ==== Sys2Proof/Machine/State.lean ====
section
/-! DEFINITION. The state of the hardware and of its environment as plain data, the faults and refusals, and reset. -/

namespace Sys2Proof.Machine

/-- `phase`, FCE's program counter: exactly these 23 values (R21). -/
inductive Phase where
  | idle
  | as1 | as2 | as3
  | idr1 | idr2
  | er1 | er2 | er3 | er4 | er5 | er6
  | dq3
  | pg1 | pg2 | pg3 | pg4
  | pl1 | pl2
  | rs1 | rs2 | rs3
  | rd
deriving DecidableEq, Repr, Inhabited

/-- The result codes of R104; codes 0x09 to 0xFF are never written (R109), so the type has no value for them (log 32).
Their numbers are `ResultCode.code`. -/
inductive ResultCode where
  | ok
  | invalidBlock
  | pollFailed
  | programFailed
  | timeout
  | identityMismatch
  | notIdentified
  | invalidAddress
  | invalidOp
deriving DecidableEq, Repr, Inhabited

/-- FCE's registers (R21 to R24, R26, R27). `busy` is derived from `phase` (R24). `addr` and `paddr` hold ADDR_W bits and
`pcnt` as many as its bounds need: widths of the configuration, kept by `Fce.widthsOk` (log 33). -/
structure Fce where
  phase : Phase
  op : Byte
  blk : Byte
  addr : Nat
  val : Byte
  len : BitVec 16
  idx : BitVec 16
  paddr : Nat
  exp : Byte
  s1 : Byte
  s2 : Byte
  pcnt : Nat
  rsLeft : BitVec 2
  res : ResultCode
  done : Bool
  result : ResultCode
  idMfr : Byte
  idDev : Byte
  failIdx : BitVec 16
  rdata : Byte
  idValid : Bool
  buf : Memory
deriving DecidableEq, Repr

/-- The outcome of a test body (R16, R103): `NoError` = 0, `Error` = 1. -/
inductive TestOutcome where
  | noError
  | error
deriving DecidableEq, Repr, Inhabited

/-- The "enumerated, ordered set" of R16 and R102: seven values and no eighth (R108). -/
inductive TestId where
  | error
  | soutBus
  | plisRegisters
  | dataBus
  | fram
  | twoRam
  | extBus
deriving DecidableEq, Repr, Inhabited

/-- Where SEQ stands: at the entry of a dispatch, at a primitive call of the running body, or at the return (R151,
R152: each primitive call is one step; log 18). A position that ends in `Done` holds SEQ until `done` (R153). -/
inductive SeqPos where
  /-- The first line of R151. -/
  | dispatch
  /-- R158. -/
  | soutSet | soutWait
  /-- R159. -/
  | plisWait | plisVersion | plisExtWrite | plisExtRead | plisInitWrite | plisInitRead
  | plisAliasWrite | plisAliasRead
  /-- R160. -/
  | dbEnable | dbWrite | dbReadBack | dbReadPaired | dbSettle | dbWdt | dbDisable
  /-- R162: window and identity; pass 1, erase; pass 2, write and verify at once; pass 3, verify later. -/
  | frEnable | frIdentify | frIdentifyDone
  | frErase | frEraseDone | frEraseWdt
  | frProgram | frProgramDone | frRead | frReadDone | frWriteWdt | frBatchReset | frBatchResetDone
  | frVerify | frVerifyDone | frVerifyWdt
  | frDisable
  /-- R163. -/
  | trWait | trImmWrite | trImmRead | trImmWdt | trDelWrite | trDelRead | trDelWdt
  /-- R164. -/
  | ebDrive | ebWait
  /-- `ShowError(mask)` (R156), then the return with the outcome held here. -/
  | showSet (after : TestOutcome)
  | showWait (after : TestOutcome)
  /-- The last two lines of R151, with the outcome the body returned. -/
  | ret (outcome : TestOutcome)
deriving DecidableEq, Repr, Inhabited

/-- SEQ's registers: R28, R29 and the body-local registers of R33 (`i` is the loop index the bodies call `i` or `j`). -/
structure Seq where
  cur : BitVec 3
  outcome : TestOutcome
  mask : Byte
  pos : SeqPos
  pass : Nat
  i : Nat
  rep : Nat
  p : Byte
  v : Byte
  r : Byte
  q : Byte
  b : Byte
  k : Nat
  g : Byte
  t : Nat
  n : Nat
  abort : Bool
deriving DecidableEq, Repr

/-! ### The environment -/

/-- The command mode of the reference device (R73). -/
inductive RefMode where
  | read
  | autosel
  | prog
  | erase
  | fail
deriving DecidableEq, Repr, Inhabited

/-- How much of a command the reference device has seen (R73): 0 to 5, or `PGMW`. -/
inductive CmdPos where
  | p0 | p1 | p2 | p3 | p4 | p5
  | pgmw
deriving DecidableEq, Repr, Inhabited

/-- The draws of one program or erase of the reference device (R73). -/
structure OpDraws where
  progReads : Nat := 0
  eraseReads : Nat := 0
  dq3Reads : Nat := 0
  dq5Reads : Nat := 0
  eraseBad : Bool := false
deriving DecidableEq, Repr, Inhabited

/-- `RefDev` (R73), "a deterministic simulated device ... not part of the hardware" (R72). -/
structure RefDev where
  arr : Memory
  mode : RefMode
  cpos : CmdPos
  baddr : Nat
  bval : Byte
  bblk : Nat
  bleft : Nat
  dq3left : Nat
  dq5left : Nat
  bad : Bool
  fstat : Byte
  simMfr : Byte
  simDev : Byte
  opDraws : List OpDraws
deriving DecidableEq, Repr

/-- DEV: the oracle of R62 with the answers it will give (and free bytes after them), or the reference device. -/
inductive Device where
  | oracle (answers : List Byte)
  | refDev (d : RefDev)
deriving DecidableEq, Repr

/-- PERIPH: an oracle (R6) with the answers it will give (and free bytes after them), or the well-behaved cells of
95_test_vectors.md section 4.5, keyed by handle and by RAM address (log 11), open whatever `ext_en` holds (log 44). -/
inductive Periph where
  | oracle (answers : List Byte)
  | cells (mem : Memory)
deriving DecidableEq, Repr

/-- What a requester other than SEQ presents (R25, R26, R234). -/
inductive BenchEvent where
  /-- `Start(op, blk, addr, val, len)`. -/
  | start (op : Byte) (o : Operands)
  /-- Write `buf[index]`. -/
  | bufWrite (index : Nat) (d : Byte)
  /-- Enable the flash window (R234, R247; log 25). -/
  | openWindow
deriving DecidableEq, Repr

/-! ### Observation (R7) -/

/-- An event of the flash-window bus trace: `W(a,d)` or `R(a)->d` (R14, R55, R56). -/
inductive BusEvent where
  | w (a : Nat) (d : Byte)
  | r (a : Nat) (d : Byte)
deriving DecidableEq, Repr

/-- A call of the output bus (R31). -/
inductive OutCall where
  | set (b : Byte)
  | setMask (m : Byte)
  | clrMask (m : Byte)
  | tglMask (m : Byte)
deriving DecidableEq, Repr

/-- An event of the output-bus trace: the call and the resulting `out` (R7). -/
structure OutEvent where
  call : OutCall
  out : Byte
deriving DecidableEq, Repr

/-- An event of the PERIPH trace (R7, R58). -/
inductive PeriphEvent where
  | write (h : Handle) (d : Byte)
  | read (h : Handle) (d : Byte)
  | ramWrite (k : Nat) (d : Byte)
  | ramRead (k : Nat) (d : Byte)
  | extBus (s : LineState)
  | extAccess (e : Bool)
  | flashWindow (e : Bool)
  | wdtTouch
deriving DecidableEq, Repr

/-! ### The whole state -/

/-- The state (R20) with its environment (R36), the observation (R7) and the model's own inputs. -/
structure State where
  /-- The parameters of R9 and R10; no step writes them (R37). -/
  cfg : Cfg
  fce : Fce
  seq : Seq
  /-- R30. -/
  cycleFlag : Bool
  /-- R31: the logical byte. -/
  out : Byte
  /-- R32. -/
  winEn : Bool
  /-- R32. -/
  extEn : Bool
  dev : Device
  periph : Periph
  /-- The agents whose turns come next; after them the schedule is free (log 6). -/
  agenda : List Agent
  /-- What a requester other than SEQ will present (log 25). -/
  bench : List BenchEvent
  /-- How many free values have been drawn. -/
  draws : Nat
  busTrace : List BusEvent
  outTrace : List OutEvent
  periphTrace : List PeriphEvent
  dispatchTrace : List (BitVec 3)
  /-- The count of consumed ticks (R7, R250). -/
  ticksConsumed : Nat
deriving DecidableEq, Repr

/-- Why the machine stops. -/
inductive Fault where
  /-- `cur` holds the reserved `TestId` code 7 (R108: "a fault (the machine is stuck), never a dispatch"). Raised by
  the meaning of the reserved TID row. Safe: nothing can be proved of what follows. -/
  | reservedTestId
  /-- FCE would access a window offset at or above FLASH_SIZE, which R50 and R51 say does not exist. Raised by the
  data store of a program, the confirm store of an erase, and the loads of R123. Safe; unreachable (log 21). -/
  | outsideWindow
  /-- A requester writes a `buf` index at or above BUF_MAX, which R26 says does not exist. Safe (log 21). -/
  | outsideBuffer
  /-- Completion detection ends for an `op` that R124 has no column for. Safe; unreachable (log 22). -/
  | strayPoll
deriving DecidableEq, Repr

/-- Why an instruction has no meaning. -/
inductive Refusal where
  /-- Raised by exec for an instruction that has no meaning yet, by its mnemonic. Safe. -/
  | notModelled (mnemonic : String)
deriving DecidableEq, Repr

/-- What a meaning answers. -/
abbrev Result := Host.Outcome State Fault Refusal

/-! ### Reset -/

/-- FCE after reset (R38); `buf` is unspecified there (log 12). -/
def Fce.reset : Fce where
  phase := .idle
  op := 0
  blk := 0
  addr := 0
  val := 0
  len := 0
  idx := 0
  paddr := 0
  exp := 0
  s1 := 0
  s2 := 0
  pcnt := 0
  rsLeft := 0
  res := .ok
  done := false
  result := .ok
  idMfr := 0
  idDev := 0
  failIdx := 0
  rdata := 0
  idValid := false
  buf := []

/-- SEQ after reset: "Initial state: `SoutBus`" (R38, R230); the body-local registers are unspecified there (log 13). -/
def Seq.reset : Seq where
  cur := 1
  outcome := .noError
  mask := 0
  pos := .dispatch
  pass := 0
  i := 0
  rep := 0
  p := 0
  v := 0
  r := 0
  q := 0
  b := 0
  k := 0
  g := 0
  t := 0
  n := 0
  abort := false

/-- The machine right after reset (R38, R230). Reset issues no bus cycle and no PERIPH access; the environment is
unspecified (R232) and answers freely; the schedule is free (log 3, 6, 7, 8). -/
def State.reset : State where
  cfg := Config.machine
  fce := Fce.reset
  seq := Seq.reset
  cycleFlag := false
  out := 0x00
  winEn := false
  extEn := false
  dev := .oracle []
  periph := .oracle []
  agenda := []
  bench := []
  draws := 0
  busTrace := []
  outTrace := []
  periphTrace := []
  dispatchTrace := []
  ticksConsumed := 0

end Sys2Proof.Machine
end

