-- ==== Sys2Proof/Machine/Operands.lean ====
section
/-! DEFINITION. Operand forms: the parameter tables read by index, and the assembly of addresses and values of
R98 and R99. -/

namespace Sys2Proof.Machine

/-! ### Tables of the configuration (R9, R10) -/

/-- `BlockOffset[b]`. -/
def blockOffset (c : Params) (b : Nat) : Nat := c.blockOffset.getD b 0

/-- `BlockSize[b]`. -/
def blockSize (c : Params) (b : Nat) : Nat := c.blockSize.getD b 0

/-- `crc8[g]` (R34). -/
def crc8 (c : Params) (g : Byte) : Byte := c.crc8.getD g.toNat 0

/-- `DB_PERM(v)` (R161). -/
def dbPerm (c : Params) (v : Byte) : Byte := c.dbPerm.getD v.toNat 0

/-- `KEY_IMM(t)` (R163). -/
def keyImm (c : Params) (t : Nat) : Byte := c.keyImm.getD t 0

/-- `KEY_DEL(t)` (R163). -/
def keyDel (c : Params) (t : Nat) : Byte := c.keyDel.getD t 0

/-- `ALIAS_REG[j]` (R159). -/
def aliasRegister (c : Params) (j : Nat) : Handle := c.aliasReg.getD j 0

/-- `ALIAS_SENTINEL[j]` (R159). -/
def aliasSentinel (c : Params) (j : Nat) : Byte := c.aliasSentinel.getD j 0

/-- Element `k` of `EXTBUS_PATTERN` (R164). -/
def extbusState (c : Params) (k : Nat) : LineState := c.extbusPattern.getD k 0

/-- Element number `k` of the generator seeded with `s`: `crc8` applied `k + 1` times (R157). -/
def generated (c : Params) (s : Byte) : Nat → Byte
  | 0 => crc8 c s
  | k + 1 => crc8 c (generated c s k)

/-- The block that holds window offset `a` (R74, last case but one). -/
def blockHolding (c : Params) (a : Nat) : Option Nat :=
  (List.range c.numBlocks).find? (fun b => decide (blockOffset c b ≤ a ∧ a < blockOffset c b + blockSize c b))

/-- The first block from `b` on that has a byte to verify (pass 3 of R162; log 41). -/
def nextBlockWithBytes (c : Params) (b : Nat) : Option Nat :=
  (List.range c.numBlocks).find? (fun x => decide (b ≤ x ∧ 0 < blockSize c x))

/-! ### FCE's operands -/

/-- The erase target, `BlockOffset[blk]`: "a table lookup ...; no arithmetic" (R99). -/
def eraseTarget (s : State) : Nat := blockOffset s.cfg.toParams s.fce.blk.toNat

/-- The program target, `addr + idx`, computed without wrap (R99). -/
def programTarget (s : State) : Nat := s.fce.addr + s.fce.idx.toNat

/-- The byte `PG4` stores: `val`, or `buf[idx]` in a `PROGRAM_BUFFER` (R123). -/
def programValue (s : State) : Byte :=
  if s.fce.op = 0x04 then s.fce.buf.read s.fce.idx.toNat else s.fce.val

/-- The RAM address of offset `k` (R58). -/
def ramAddress (c : Params) (k : Nat) : Nat := c.ramBase + k

end Sys2Proof.Machine
end

