-- ==== Sys2Proof/Machine/Flags.lean ====
section
/-! DEFINITION. Flag computations: the status bits FCE reads (R97), the numbers of the result codes (R104), the
identity check, the `ErrorMask` flags (R105), `busy` (R24), the physical level of the output lines (R31). -/

namespace Sys2Proof.Machine

/-! ### Status bits (R97): only bits 7, 5 and 3 are read -/

/-- Bit 7 of the status equals bit 7 of the expected value: the operation has completed (R98). -/
def statusDone (exp d : Byte) : Bool := d.getLsbD 7 == exp.getLsbD 7

/-- Bit 5: "timing exceeded". -/
def timingExceeded (d : Byte) : Bool := d.getLsbD 5

/-- Bit 3: "erase started". -/
def eraseStarted (d : Byte) : Bool := d.getLsbD 3

/-! ### Result codes -/

/-- The code of R104. -/
def ResultCode.code : ResultCode → Byte
  | .ok => 0x00
  | .invalidBlock => 0x01
  | .pollFailed => 0x02
  | .programFailed => 0x03
  | .timeout => 0x04
  | .identityMismatch => 0x05
  | .notIdentified => 0x06
  | .invalidAddress => 0x07
  | .invalidOp => 0x08

/-- D0's error classes (R190, R201); `VerificationError` has no FCE code (R200). -/
inductive ErrorClass where
  | validation
  | protocol
  | timeout
deriving DecidableEq, Repr

/-- The class of a result code (R201). -/
def ResultCode.errorClass : ResultCode → Option ErrorClass
  | .ok => none
  | .invalidBlock => some .validation
  | .identityMismatch => some .validation
  | .notIdentified => some .validation
  | .invalidAddress => some .validation
  | .invalidOp => some .validation
  | .pollFailed => some .protocol
  | .programFailed => some .protocol
  | .timeout => some .timeout

/-- `Outcome` codes (R103). -/
def TestOutcome.code : TestOutcome → BitVec 1
  | .noError => 0
  | .error => 1

/-! ### Derived flags -/

/-- `busy`: 1 exactly when `phase` is not `IDLE` (R24). -/
def Fce.busy (f : Fce) : Bool := f.phase != .idle

/-- The two identity bytes are `(MANUFACTURER, DEVICE_CODE)` (R123, row IDR2). -/
def identityMatches (c : Params) (mfr dev : Byte) : Bool := mfr == c.manufacturer && dev == c.deviceCode

/-- The physical level of the output lines: `out ^ OUT_INVERT` (R31). -/
def physicalLines (s : State) : Byte := s.out ^^^ s.cfg.outInvert

/-- The `ErrorMask` bits a test may set (R105; the others are never set by that body, R109). -/
def maskBits : TestId → Byte
  | .plisRegisters => 0x0F
  | .dataBus => 0x03
  | .fram => 0x0F
  | .twoRam => 0x03
  | .soutBus => 0x00
  | .extBus => 0x00
  | .error => 0x00

end Sys2Proof.Machine
end

