-- ==== Sys2Proof/Machine/RefDev.lean ====
section
/-! DEFINITION. `RefDev`, the reference device of R73 to R79: one deterministic device that meets the contract of
R63 to R68. It is test equipment, "not part of the hardware" (R72); no rule of FCE or SEQ depends on it. -/

namespace Sys2Proof.Machine.RefDev

/-- The draws of the operation that starts (R73, "supplied by the test"); none supplied means all zero (log 10). -/
def currentDraws (r : RefDev) : OpDraws := r.opDraws.headD {}

/-- Program start at `(a, d)` (R75). -/
def startProgram (a : Nat) (d : Byte) (r : RefDev) : RefDev :=
  let cell := r.arr.read a
  let bad := cell &&& d != d
  { r with
    baddr := a, bval := d, cpos := .p0, bad := bad
    bleft := r.currentDraws.progReads, dq5left := r.currentDraws.dq5Reads
    mode := .prog
    arr := if bad then r.arr.write a (cell &&& d) else r.arr
    opDraws := r.opDraws.tail }

/-- Erase start at block `b` (R77). -/
def startErase (b : Nat) (r : RefDev) : RefDev :=
  { r with
    bblk := b, bval := 0xFF, cpos := .p0, bad := r.currentDraws.eraseBad
    bleft := r.currentDraws.eraseReads, dq3left := r.currentDraws.dq3Reads
    dq5left := r.currentDraws.dq5Reads
    mode := .erase
    opDraws := r.opDraws.tail }

/-- Back to read mode with no command begun (R74, R79). -/
def toRead (r : RefDev) : RefDev := { r with mode := .read, cpos := .p0 }

/-- A store while `mode` is `READ` or `AUTOSEL`, by `cpos` (R74). -/
def storeCommand (c : Params) (a : Nat) (d : Byte) (r : RefDev) : RefDev :=
  if r.cpos ≠ .pgmw ∧ d = 0xF0 then r.toRead
  else
    match r.cpos with
    | .p0 => if a = 0xAAA ∧ d = 0xAA then { r with cpos := .p1 } else r
    | .p1 => if a = 0x555 ∧ d = 0x55 then { r with cpos := .p2 } else { r with cpos := .p0 }
    | .p2 =>
      if a = 0xAAA ∧ d = 0x90 then { r with mode := .autosel, cpos := .p0 }
      else if a = 0xAAA ∧ d = 0xA0 then { r with cpos := .pgmw }
      else if a = 0xAAA ∧ d = 0x80 then { r with cpos := .p3 }
      else { r with cpos := .p0 }
    | .p3 => if a = 0xAAA ∧ d = 0xAA then { r with cpos := .p4 } else { r with cpos := .p0 }
    | .p4 => if a = 0x555 ∧ d = 0x55 then { r with cpos := .p5 } else { r with cpos := .p0 }
    | .p5 =>
      if d = 0x30 then
        match blockHolding c a with
        | some b => r.startErase b
        | none => { r with cpos := .p0 }
      else { r with cpos := .p0 }
    | .pgmw => r.startProgram a d

/-- A store (R74; while busy or failed, R79). -/
def store (c : Params) (a : Nat) (d : Byte) (r : RefDev) : RefDev :=
  match r.mode with
  | .read => r.storeCommand c a d
  | .autosel => r.storeCommand c a d
  | .prog => r
  | .erase => r
  | .fail => if d = 0xF0 then r.toRead else r

/-- The busy status of a program: `(~bval[7]) << 7` (R76). -/
def busyStatus (r : RefDev) : Byte := if r.bval.getLsbD 7 then 0x00 else 0x80

/-- The array with block `b` erased (R78). -/
def erasedArray (c : Params) (b : Nat) (m : Memory) : Memory := m.erase (blockOffset c b) (blockSize c b)

/-- `d3` of R78. -/
def eraseStartedBit (r : RefDev) : Byte := if r.dq3left = 0 then 0x08 else 0x00

/-- A load in `mode == PROG` (R76). -/
def loadProg (a : Nat) (r : RefDev) : Byte × RefDev :=
  if r.bad then
    if 0 < r.dq5left then (r.busyStatus, { r with dq5left := r.dq5left - 1 })
    else (r.busyStatus ||| 0x20, { r with fstat := r.busyStatus ||| 0x20, mode := .fail })
  else if 0 < r.bleft then (r.busyStatus, { r with bleft := r.bleft - 1 })
  else
    let arr := r.arr.write r.baddr r.bval
    (arr.read a, { r with arr := arr, mode := .read })

/-- A load in `mode == ERASE` (R78). -/
def loadErase (c : Params) (a : Nat) (r : RefDev) : Byte × RefDev :=
  let d3 := r.eraseStartedBit
  let r' := { r with dq3left := r.dq3left - 1 }
  if r.bad then
    if 0 < r.dq5left then (d3, { r' with dq5left := r.dq5left - 1 })
    else (d3 ||| 0x20, { r' with mode := .fail, fstat := 0x28 })
  else if 0 < r.bleft then (d3, { r' with bleft := r.bleft - 1 })
  else
    let arr := erasedArray c r.bblk r.arr
    (arr.read a, { r' with arr := arr, mode := .read })

/-- A load `R(a)` (R76, R78): the byte answered and the device after it. -/
def load (c : Params) (a : Nat) (r : RefDev) : Byte × RefDev :=
  match r.mode with
  | .read => (r.arr.read a, r)
  | .autosel =>
    (if a = c.idMfrOffset then r.simMfr else if a = c.idDevOffset then r.simDev else 0x00, r)
  | .prog => r.loadProg a
  | .fail => (r.fstat, r)
  | .erase => r.loadErase c a

/-- The device of a test: in read mode, no command begun, the array given (R73, last sentence). R73 gives no first value of
`baddr`, `bval`, `bblk`, `bleft`, `dq3left`, `dq5left`, `bad` and `fstat`: that they are 0 (false) here is the model's choice
(log 45); R75 to R78 write each before anything reads it. -/
def fresh (simMfr simDev : Byte) (arr : Memory) (opDraws : List OpDraws) : RefDev where
  arr := arr
  mode := .read
  cpos := .p0
  baddr := 0
  bval := 0
  bblk := 0
  bleft := 0
  dq3left := 0
  dq5left := 0
  bad := false
  fstat := 0
  simMfr := simMfr
  simDev := simDev
  opDraws := opDraws

end Sys2Proof.Machine.RefDev
end

