-- ==== Sys2Proof/Machine/Ops.lean ====
section
/-! DEFINITION. The named operations every meaning is built from: register updates, the bus primitives of R55 and R56,
the PERIPH and output primitives of R31 and R58, `WaitTick` (R154), request acceptance (R121), and what stands for
taking an exception and returning from one: `finish` and `enterReset` (R122, R205), `publishReset` (R123, row RS3). -/

namespace Sys2Proof.Machine

/-! ### Register updates -/

/-- Update FCE's registers. -/
def State.onFce (s : State) (f : Fce → Fce) : State := { s with fce := f s.fce }

/-- Update SEQ's registers. -/
def State.onSeq (s : State) (f : Seq → Seq) : State := { s with seq := f s.seq }

/-- `phase <- p`. -/
def toPhase (p : Phase) (s : State) : State := s.onFce fun f => { f with phase := p }

/-- SEQ goes on at position `p` of the running body. -/
def goto (p : SeqPos) (s : State) : State := s.onSeq fun q => { q with pos := p }

/-! ### Free values -/

/-- One free value has been drawn. -/
def State.countDraw (s : State) : State := { s with draws := s.draws + 1 }

/-! ### The flash window (R55, R56, R59, R62) -/

/-- Append an event to the bus trace. -/
def State.logBus (s : State) (e : BusEvent) : State := { s with busTrace := s.busTrace ++ [e] }

/-- DEV receives a store as the next cycle of its protocol (R55, R68). -/
def Device.store (c : Params) (a : Nat) (d : Byte) : Device → Device
  | .oracle answers => .oracle answers
  | .refDev r => .refDev (r.store c a d)

/-- `BusWrite(a, d)` (R55); with the window disabled the store reaches no device but is in the trace (R59, U4). -/
def busWrite (a : Nat) (d : Byte) (s : State) : State :=
  State.logBus (if s.winEn then { s with dev := s.dev.store s.cfg.toParams a d } else s) (.w a d)

/-- The byte a load at `a` is answered (R62); with the window disabled, any value (R59, U4; log 9). -/
def devAnswer (a : Nat) (s : State) : Byte :=
  if s.winEn then
    match s.dev with
    | .oracle [] => Config.freeDevByte s.draws
    | .oracle (d :: _) => d
    | .refDev r => (r.load s.cfg.toParams a).1
  else Config.freeClosedByte s.draws

/-- What the load leaves of DEV: a load may change its hidden state (R56). -/
def devAfterLoad (a : Nat) (s : State) : State :=
  if s.winEn then
    match s.dev with
    | .oracle [] => s.countDraw
    | .oracle (_ :: rest) => { s with dev := .oracle rest }
    | .refDev r => { s with dev := .refDev (r.load s.cfg.toParams a).2 }
  else s.countDraw

/-- `BusRead(a)` (R56): the byte is `devAnswer a s`, this is the state after it. -/
def busRead (a : Nat) (s : State) : State := (devAfterLoad a s).logBus (.r a (devAnswer a s))

/-- A window access at an operand address: offsets at or above FLASH_SIZE do not exist (R50, R51; log 21). -/
def inWindow (a : Nat) (s : State) (access : Result) : Result :=
  if a < s.cfg.flashSize then access else .fault .outsideWindow

/-! ### PERIPH (R58) -/

/-- Append an event to the PERIPH trace. -/
def State.logPeriph (s : State) (e : PeriphEvent) : State := { s with periphTrace := s.periphTrace ++ [e] }

/-- PERIPH receives a byte at a cell; the oracle absorbs it (R6). That a cell takes the byte whatever `ext_en` holds is the
model's choice: the spec does not say what an access does while it is 0 (R32, R209, N14; log 44). -/
def Periph.store (a : Nat) (d : Byte) : Periph → Periph
  | .oracle answers => .oracle answers
  | .cells m => .cells (m.write a d)

/-- The byte PERIPH answers at cell `a` (R6, R58). In the well-behaved cells every cell reads back the last byte written,
and the paired read register the permutation of the data-bus write register (95_test_vectors.md 4.5, D2; log 11). The answer
does not look at `ext_en`: what an access gets while it is 0 is not in the spec (R32, R209, N14), the choice is log 44. -/
def periphAnswer (a : Nat) (s : State) : Byte :=
  match s.periph with
  | .oracle [] => Config.freePeriphByte s.draws
  | .oracle (d :: _) => d
  | .cells m =>
    if a = s.cfg.dbRdReg then dbPerm s.cfg.toParams (m.read s.cfg.dbWrReg) else m.read a

/-- What the load leaves of PERIPH. -/
def periphAfterLoad (s : State) : State :=
  match s.periph with
  | .oracle [] => s.countDraw
  | .oracle (_ :: rest) => { s with periph := .oracle rest }
  | .cells _ => s

/-- `PeriphWrite(h, d)`, performed whatever `ext_en` holds (log 44). -/
def periphWrite (h : Handle) (d : Byte) (s : State) : State :=
  State.logPeriph { s with periph := s.periph.store h d } (.write h d)

/-- `PeriphRead(h)`: the byte is `periphAnswer h s`. -/
def periphRead (h : Handle) (s : State) : State :=
  (periphAfterLoad s).logPeriph (.read h (periphAnswer h s))

/-- `RamWrite(k, d)`, at `RAM_BASE + k`. -/
def ramWrite (k : Nat) (d : Byte) (s : State) : State :=
  State.logPeriph { s with periph := s.periph.store (ramAddress s.cfg.toParams k) d } (.ramWrite k d)

/-- The byte `RamRead(k)` is answered. -/
def ramAnswer (k : Nat) (s : State) : Byte := periphAnswer (ramAddress s.cfg.toParams k) s

/-- `RamRead(k)`: the byte is `ramAnswer k s`. -/
def ramRead (k : Nat) (s : State) : State := (periphAfterLoad s).logPeriph (.ramRead k (ramAnswer k s))

/-- `ExtBusDrive(x)`; write-only. -/
def extBusDrive (x : LineState) (s : State) : State := s.logPeriph (.extBus x)

/-- `ExtAccess(e)`: `ext_en <- e`. -/
def extAccess (e : Bool) (s : State) : State := State.logPeriph { s with extEn := e } (.extAccess e)

/-- `FlashWindow(e)`: `win_en <- e`. -/
def flashWindow (e : Bool) (s : State) : State := State.logPeriph { s with winEn := e } (.flashWindow e)

/-- `WdtTouch()`: touch `WDT_LOCATION`; "whether the touch is a load or a store is not in D0" (log 27). -/
def wdtTouch (s : State) : State := s.logPeriph .wdtTouch

/-- `Settle()`: "has no effect on any state" (R152). -/
def settle (s : State) : State := s

/-! ### The output bus (R31) -/

/-- The value `out` takes by a call; "clear" is and-not (R31, 90_conflicts.md C11). -/
def OutCall.apply (out : Byte) : OutCall → Byte
  | .set b => b
  | .setMask m => out ||| m
  | .clrMask m => out &&& ~~~m
  | .tglMask m => out ^^^ m

/-- Perform a call of the output bus and record it with the resulting `out` (R7). -/
def outDo (call : OutCall) (s : State) : State :=
  { s with out := call.apply s.out, outTrace := s.outTrace ++ [⟨call, call.apply s.out⟩] }

/-- `OutSet(b)`. -/
def outSet (b : Byte) (s : State) : State := outDo (.set b) s

/-- `OutSetMask(m)`. -/
def outSetMask (m : Byte) (s : State) : State := outDo (.setMask m) s

/-- `OutClrMask(m)`. -/
def outClrMask (m : Byte) (s : State) : State := outDo (.clrMask m) s

/-- `OutTglMask(m)`. -/
def outTglMask (m : Byte) (s : State) : State := outDo (.tglMask m) s

/-! ### The tick flag (R30, R69, R154) -/

/-- TICK's step: `CycleFlag <- 1`, whatever it held. -/
def tickStep (s : State) : State := { s with cycleFlag := true }

/-- The clear of a `WaitTick` that returns. -/
def consumeTick (s : State) : State := { s with cycleFlag := false, ticksConsumed := s.ticksConsumed + 1 }

/-- `WaitTick()`, an atomic test-and-clear; with the flag clear SEQ is held and nothing changes (R154, U19; log 26). -/
def waitTick (go : State → State) (s : State) : State :=
  if s.cycleFlag then go (consumeTick s) else s

/-! ### Ending an operation: what stands for taking an exception and returning from it (R205, R207) -/

/-- `finish(c)`: the operation ends with result code `c`, no bus cycle (R122). A validation error is taken this way. -/
def finish (c : ResultCode) (s : State) : State :=
  s.onFce fun f => { f with result := c, done := true, phase := .idle }

/-- `enter_reset(n, c)`: `n` reset sequences, then `c` is published (R122). A protocol or timeout error is taken this
way: the code is saved in `res` and control goes to `RS1` (R205). -/
def enterReset (n : BitVec 2) (c : ResultCode) (s : State) : State :=
  s.onFce fun f => { f with rsLeft := n, res := c, phase := .rs1 }

/-- The return: the last reset sequence has ended, `res` is published (R123, row RS3). -/
def publishReset (s : State) : State :=
  s.onFce fun f => { f with result := f.res, done := true, phase := .idle }

/-! ### Request acceptance (R121) -/

/-- What the `addr` register takes of an address operand: the operand where it fits its ADDR_W bits (R22, R121). One that
does not is answered by its check (vector P-1) and leaves the register any value of ADDR_W bits, which no rule reads
(log 42). -/
def addrBits (c : Params) (a : Nat) : Nat := if a < 2 ^ c.addrW then a else Config.freeAddr a % 2 ^ c.addrW

/-- The latches an accepted request writes (R22, R121). -/
def latch (op : Byte) (o : Operands) (s : State) : State :=
  s.onFce fun f =>
    { f with
      op := op, blk := o.blk, addr := addrBits s.cfg.toParams o.addr, val := o.val, len := o.len
      done := false, idx := 0 }

/-- `Start(op, ...)`: accepted only when FCE is idle; "ignored: no state changes" while it is busy (R25, R121). -/
def start (op : Byte) (o : Operands) (accepted : State → State) (s : State) : State :=
  if s.fce.busy then s else accepted (latch op o s)

/-- The `id_valid` check of a destructive request, after its operand check (R121, R197, R204). -/
def whenIdentified (go : State → State) (s : State) : State :=
  if s.fce.idValid then go s else finish .notIdentified s

/-! ### Reset in operation (R230, R231) -/

/-- The reset line fires: every register of FCE and SEQ, `CycleFlag`, `out` and the enables take their reset value;
no bus cycle and no PERIPH access is issued; DEV and PERIPH keep what they hold (R231, R232; log 15). -/
def hwReset (s : State) : State :=
  { State.reset with
    cfg := s.cfg, dev := s.dev, periph := s.periph, agenda := s.agenda, bench := s.bench, draws := s.draws
    busTrace := s.busTrace, outTrace := s.outTrace, periphTrace := s.periphTrace
    dispatchTrace := s.dispatchTrace, ticksConsumed := s.ticksConsumed }

/-- A requester writes `buf[index]` (R26); an index at or above BUF_MAX does not exist (log 21). While FCE is busy the
write takes effect all the same (U6; log 23). -/
def bufWrite (index : Nat) (d : Byte) (s : State) : Result :=
  if index < s.cfg.bufMax then .next (s.onFce fun f => { f with buf := f.buf.write index d })
  else .fault .outsideBuffer

end Sys2Proof.Machine
end

