-- ==== Sys2Proof/Machine/Wire.lean ====
section
/-! DEFINITION. The CYC family: the store rows of the phase table (R123). Executing a wire command is its bus cycle at
the phase FCE stands at, with that row's register writes; from a phase outside its rows it begins at cycle 1 (log 19). -/

namespace Sys2Proof.Machine

/-- Cycle 1 of every command, `W(0xAAA, 0xAA)` (R91). -/
def unlock1 (s : State) : State := busWrite 0xAAA 0xAA s

/-- Cycle 2 of every command, `W(0x555, 0x55)` (R91). -/
def unlock2 (s : State) : State := busWrite 0x555 0x55 s

/-- A command byte, stored at `0xAAA` (R96). -/
def command (d : Byte) (s : State) : State := busWrite 0xAAA d s

/-- SEQ_AUTOSELECT (R92; rows AS1 to AS3). -/
def execSeqAutoselect (s : State) : Result :=
  match s.fce.phase with
  | .as2 => .next (toPhase .as3 (unlock2 s))
  | .as3 => .next (toPhase .idr1 (command 0x90 s))
  | _ => .next (toPhase .as2 (unlock1 s))

/-- After the third store of a reset sequence (R123, row RS3): another one if any is left, else publish `res`. -/
def resetSequenceDone (s : State) : State :=
  let t := s.onFce fun f => { f with rsLeft := f.rsLeft - 1 }
  if t.fce.rsLeft ≠ 0 then toPhase .rs1 t else publishReset t

/-- SEQ_RESET (R93; rows RS1 to RS3). -/
def execSeqReset (s : State) : Result :=
  match s.fce.phase with
  | .rs2 => .next (toPhase .rs3 (unlock2 s))
  | .rs3 => .next (resetSequenceDone (command 0xF0 s))
  | _ => .next (toPhase .rs2 (unlock1 s))

/-- What rows ER6 and PG4 leave for the spins: the address, the expected value, a fresh count (R123). -/
def expect (a : Nat) (v : Byte) (s : State) : State :=
  s.onFce fun f => { f with paddr := a, exp := v, pcnt := 0 }

/-- SEQ_PROGRAM (R94; rows PG1 to PG4). -/
def execSeqProgram (address : Nat) (value : Byte) (s : State) : Result :=
  match s.fce.phase with
  | .pg2 => .next (toPhase .pg3 (unlock2 s))
  | .pg3 => .next (toPhase .pg4 (command 0xA0 s))
  | .pg4 => inWindow address s (.next (toPhase .pl1 (expect address value (busWrite address value s))))
  | _ => .next (toPhase .pg2 (unlock1 s))

/-- SEQ_BLOCK_ERASE (R95; rows ER1 to ER6). Cycles 3 to 5 are the spec's general-knowledge ones (log 16). -/
def execSeqBlockErase (offset : Nat) (s : State) : Result :=
  match s.fce.phase with
  | .er2 => .next (toPhase .er3 (unlock2 s))
  | .er3 => .next (toPhase .er4 (command 0x80 s))
  | .er4 => .next (toPhase .er5 (unlock1 s))
  | .er5 => .next (toPhase .er6 (unlock2 s))
  | .er6 => inWindow offset s (.next (toPhase .dq3 (expect offset 0xFF (busWrite offset 0x30 s))))
  | _ => .next (toPhase .er2 (unlock1 s))

end Sys2Proof.Machine
end

