-- ==== Sys2Proof/Machine/Phases.lean ====
section
/-! DEFINITION. The load rows of the phase table (R123), the exits of completion detection (R124), the two spins
(R126, R127), and the whole phase table as one step. -/

namespace Sys2Proof.Machine

/-! ### Identity loads -/

/-- Row IDR1. -/
def loadMfr (s : State) : State :=
  let a := s.cfg.idMfrOffset
  toPhase .idr2 ((busRead a s).onFce fun f => { f with idMfr := devAnswer a s })

/-- Row IDR2: the pair is compared, `id_valid` records the outcome, the reset sequence follows on both outcomes. -/
def loadDev (s : State) : State :=
  let a := s.cfg.idDevOffset
  let d := devAnswer a s
  let ok := identityMatches s.cfg.toParams s.fce.idMfr d
  enterReset 1 (if ok then .ok else .identityMismatch)
    ((busRead a s).onFce fun f => { f with idDev := d, idValid := ok })

/-! ### The exits of completion detection (R124) -/

/-- `poll_success` of `PROGRAM_BUFFER`: the next element if it exists, else the trailing reset. -/
def nextElement (s : State) : State :=
  let t := s.onFce fun f => { f with idx := f.idx + 1 }
  if s.fce.idx.toNat + 1 < s.fce.len.toNat then toPhase .pg1 t else enterReset 1 .ok t

/-- `poll_success`. -/
def pollSuccess (s : State) : Result :=
  match s.fce.op.toNat with
  | 0x02 => .next (enterReset 1 .ok s)
  | 0x03 => .next (finish .ok s)
  | 0x04 => .next (nextElement s)
  | _ => .fault .strayPoll

/-- A buffer fails at element `idx`: its index is recorded and two reset sequences follow (R124, R131). -/
def failElement (c : ResultCode) (s : State) : State :=
  enterReset 2 c (s.onFce fun f => { f with failIdx := f.idx })

/-- `poll_failure`. -/
def pollFailure (s : State) : Result :=
  match s.fce.op.toNat with
  | 0x02 => .next (enterReset 1 .pollFailed s)
  | 0x03 => .next (enterReset 1 .programFailed s)
  | 0x04 => .next (failElement .programFailed s)
  | _ => .fault .strayPoll

/-- `poll_timeout`. -/
def pollTimeout (s : State) : Result :=
  match s.fce.op.toNat with
  | 0x02 => .next (enterReset 1 .timeout s)
  | 0x03 => .next (enterReset 1 .timeout s)
  | 0x04 => .next (failElement .timeout s)
  | _ => .fault .strayPoll

/-! ### The spins -/

/-- A status load of a spin: `s1 <- d; pcnt <- pcnt + 1`. -/
def statusLoad (s : State) : State :=
  (busRead s.fce.paddr s).onFce fun f => { f with s1 := devAnswer s.fce.paddr s, pcnt := f.pcnt + 1 }

/-- Row DQ3, the erase-started spin (R126): bit 3 before the bound. -/
def spinEraseStarted (s : State) : State :=
  let t := statusLoad s
  if eraseStarted (devAnswer s.fce.paddr s) then
    toPhase .pl1 (t.onFce fun f => { f with pcnt := 0 })
  else if s.fce.pcnt + 1 = s.cfg.dq3Bound then enterReset 1 .timeout t
  else t

/-- Row PL1, completion detection's first load (R127): bit 7, then bit 5, then the bound (R204). -/
def pollFirst (s : State) : Result :=
  let d := devAnswer s.fce.paddr s
  let t := statusLoad s
  if statusDone s.fce.exp d then pollSuccess t
  else if timingExceeded d then .next (toPhase .pl2 t)
  else if s.fce.pcnt + 1 = s.cfg.pollBound then pollTimeout t
  else .next t

/-- Row PL2, the single re-read (R127). -/
def pollAgain (s : State) : Result :=
  let d := devAnswer s.fce.paddr s
  let t := (busRead s.fce.paddr s).onFce fun f => { f with s2 := d }
  if statusDone s.fce.exp d then pollSuccess t else pollFailure t

/-- Row RD (R132). -/
def plainLoad (s : State) : State :=
  finish .ok ((busRead s.fce.addr s).onFce fun f => { f with rdata := devAnswer s.fce.addr s })

/-- The load rows of R123; in any other phase nothing (no load row applies). -/
def fceLoad (s : State) : Result :=
  match s.fce.phase with
  | .idr1 => .next (loadMfr s)
  | .idr2 => .next (loadDev s)
  | .dq3 => inWindow s.fce.paddr s (.next (spinEraseStarted s))
  | .pl1 => inWindow s.fce.paddr s (pollFirst s)
  | .pl2 => inWindow s.fce.paddr s (pollAgain s)
  | .rd => inWindow s.fce.addr s (.next (plainLoad s))
  | _ => .next s

/-- The wire command whose rows the phase belongs to, with its operands assembled (R98, R99); none in a load row. -/
def phaseCommand (s : State) : Option Instr :=
  match s.fce.phase with
  | .as1 => some .seqAutoselect
  | .as2 => some .seqAutoselect
  | .as3 => some .seqAutoselect
  | .er1 => some (.seqBlockErase (eraseTarget s))
  | .er2 => some (.seqBlockErase (eraseTarget s))
  | .er3 => some (.seqBlockErase (eraseTarget s))
  | .er4 => some (.seqBlockErase (eraseTarget s))
  | .er5 => some (.seqBlockErase (eraseTarget s))
  | .er6 => some (.seqBlockErase (eraseTarget s))
  | .pg1 => some (.seqProgram (programTarget s) (programValue s))
  | .pg2 => some (.seqProgram (programTarget s) (programValue s))
  | .pg3 => some (.seqProgram (programTarget s) (programValue s))
  | .pg4 => some (.seqProgram (programTarget s) (programValue s))
  | .rs1 => some .seqReset
  | .rs2 => some .seqReset
  | .rs3 => some .seqReset
  | .idle => none
  | .idr1 => none
  | .idr2 => none
  | .dq3 => none
  | .pl1 => none
  | .pl2 => none
  | .rd => none

/-- One FCE step: the phase table R123 (in `IDLE` FCE has no step of its own). -/
def fceStep (s : State) : Result :=
  match phaseCommand s with
  | some .seqAutoselect => execSeqAutoselect s
  | some .seqReset => execSeqReset s
  | some (.seqProgram address value) => execSeqProgram address value s
  | some (.seqBlockErase offset) => execSeqBlockErase offset s
  | _ => fceLoad s

/-- `n` FCE steps, none in between of any other agent. -/
def fceRun : Nat → State → Result
  | 0, s => .next s
  | n + 1, s =>
    match fceStep s with
    | .next t => fceRun n t
    | .fault r => .fault r
    | .refused r => .refused r

end Sys2Proof.Machine
end

