-- ==== Sys2Proof/Machine/Agents.lean ====
section
/-! DEFINITION. Whose turn it is, what instruction the agent runs next (the fetch), and the steps that run no
instruction. Step.lean only puts these together with exec. -/

namespace Sys2Proof.Machine

/-- The agent whose turn it is: the head of the agenda, or a free choice where the agenda is empty (R37; log 6). -/
def turn (s : State) : Agent :=
  match s.agenda with
  | [] => Config.freeAgent s.draws
  | a :: _ => a

/-- The turn is taken off the agenda, or the draw is counted. -/
def afterTurn (s : State) : State :=
  match s.agenda with
  | [] => s.countDraw
  | _ :: rest => { s with agenda := rest }

/-- The instruction the core runs next: the wire command of FCE's phase while it is busy (R123), else the one the code
in `cur` stands for (R28, R151). -/
def coreFetch (s : State) : Option Instr :=
  if s.fce.busy then phaseCommand s else some (decodeTid s.seq.cur)

/-- The instruction an agent runs in its turn, and the state it runs in; none where its step runs no instruction. -/
def fetch (a : Agent) (s : State) : Option (Instr × State) :=
  match a with
  | .core => (coreFetch s).map fun i => (i, s)
  | .bench =>
    match s.bench with
    | .start op o :: rest => some (decodeReq op o, { s with bench := rest })
    | .bufWrite _ _ :: _ => none
    | .openWindow :: _ => none
    | [] => none
  | .tick => none
  | .resetLine => none

/-- A requester's turn that presents no request: a write of `buf`, the enabling of the flash window (R234; recorded as the
driving of PERIPH it is, R58), or nothing. -/
def benchWrite (s : State) : Result :=
  match s.bench with
  | .bufWrite index d :: rest => bufWrite index d { s with bench := rest }
  | .openWindow :: rest => .next (flashWindow true { s with bench := rest })
  | .start _ _ :: _ => .next s
  | [] => .next s

/-- The step of an agent that runs no instruction: a load row of FCE (R123), TICK's set (R30), a requester's write of
`buf` or enabling of the window (R26, R234), the reset line (R231). -/
def noFetch (a : Agent) (s : State) : Result :=
  match a with
  | .core => fceLoad s
  | .tick => .next (tickStep s)
  | .bench => benchWrite s
  | .resetLine => .next (hwReset s)

end Sys2Proof.Machine
end

