-- ==== Sys2Proof/Machine/Requests.lean ====
section
/-! DEFINITION. The REQ family: what `Start` does for each opcode (R121). A check compares the operand as it is presented,
which is the new value of its latch wherever it fits (log 42). The phases an accepted request starts are run
by later steps (R123: Wire.lean for the stores, Phases.lean for the loads). -/

namespace Sys2Proof.Machine

/-- `IDENTIFY` (R121, R128). -/
def acceptIdentify (o : Operands) (s : State) : State := start 0x01 o (toPhase .as1) s

/-- `ERASE_BLOCK` (R121, R129): the block check, then `id_valid`. -/
def acceptEraseBlock (o : Operands) (s : State) : State :=
  start 0x02 o
    (fun t =>
      if s.cfg.numBlocks ≤ o.blk.toNat then finish .invalidBlock t
      else whenIdentified (toPhase .er1) t) s

/-- `PROGRAM_BYTE` (R121, R130): the address check, then `id_valid`. -/
def acceptProgramByte (o : Operands) (s : State) : State :=
  start 0x03 o
    (fun t =>
      if s.cfg.flashSize ≤ o.addr then finish .invalidAddress t
      else whenIdentified (toPhase .pg1) t) s

/-- `PROGRAM_BUFFER` (R121, R131): the range check without wrap, then `id_valid`, then the empty buffer. -/
def acceptProgramBuffer (o : Operands) (s : State) : State :=
  start 0x04 o
    (fun t =>
      if s.cfg.bufMax < o.len.toNat ∨ s.cfg.flashSize < o.addr + o.len.toNat then finish .invalidAddress t
      else whenIdentified (fun u => if o.len.toNat = 0 then enterReset 1 .ok u else toPhase .pg1 u) t) s

/-- `READ` (R121, R132): the address check only. -/
def acceptRead (o : Operands) (s : State) : State :=
  start 0x05 o
    (fun t => if s.cfg.flashSize ≤ o.addr then finish .invalidAddress t else toPhase .rd t) s

/-- `RESET` (R121, R133). -/
def acceptReset (o : Operands) (s : State) : State := start 0x06 o (enterReset 1 .ok) s

/-- A reserved opcode (R106, R121): accepted, ends at once with `InvalidOp`. -/
def acceptReserved (op : Byte) (o : Operands) (s : State) : State := start op o (finish .invalidOp) s

/-! ### The meanings -/

/-- IDENTIFY, R128. -/
def execIdentify (o : Operands) (s : State) : Result := .next (acceptIdentify o s)

/-- ERASE_BLOCK, R129. -/
def execEraseBlock (o : Operands) (s : State) : Result := .next (acceptEraseBlock o s)

/-- PROGRAM_BYTE, R130. -/
def execProgramByte (o : Operands) (s : State) : Result := .next (acceptProgramByte o s)

/-- PROGRAM_BUFFER, R131. -/
def execProgramBuffer (o : Operands) (s : State) : Result := .next (acceptProgramBuffer o s)

/-- READ, R132. -/
def execRead (o : Operands) (s : State) : Result := .next (acceptRead o s)

/-- RESET, R133. -/
def execReset (o : Operands) (s : State) : Result := .next (acceptReset o s)

/-- The reserved opcodes, R106. -/
def execReservedRequest (op : Byte) (o : Operands) (s : State) : Result := .next (acceptReserved op o s)

end Sys2Proof.Machine
end

