-- ==== Sys2Proof/Machine/Sequencer.lean ====
section
/-! DEFINITION. What the seven bodies share: the transition table (R150), the entry and the return of a dispatch
(R151), error collection (R155), `ShowError` (R156), the generator (R157), and an FCE request (R153). -/

namespace Sys2Proof.Machine

/-- The code of a `TestId` (R102). -/
def TestId.code : TestId → BitVec 3
  | .error => 0
  | .soutBus => 1
  | .plisRegisters => 2
  | .dataBus => 3
  | .fram => 4
  | .twoRam => 5
  | .extBus => 6

/-- The transition table `T`, "complete and fixed" (R150). -/
def transition : TestId → TestOutcome → TestId
  | .error, .noError => .soutBus
  | .error, .error => .soutBus
  | .soutBus, .noError => .plisRegisters
  | .soutBus, .error => .soutBus
  | .plisRegisters, .noError => .dataBus
  | .plisRegisters, .error => .plisRegisters
  | .dataBus, .noError => .fram
  | .dataBus, .error => .dataBus
  | .fram, .noError => .twoRam
  | .fram, .error => .fram
  | .twoRam, .noError => .extBus
  | .twoRam, .error => .twoRam
  | .extBus, .noError => .extBus
  | .extBus, .error => .extBus

/-! ### A dispatch (R151) -/

/-- The entry of a dispatch: `outcome <- NoError`, the dispatch is observed (R7), the body begins. -/
def beginDispatch (self : TestId) (entry : State → State) (s : State) : State :=
  entry (State.onSeq { s with dispatchTrace := s.dispatchTrace ++ [self.code] }
    fun q => { q with outcome := .noError })

/-- The return: `outcome` is what the body returned, `cur <- T[cur][outcome]`; `cur` is written here and nowhere else. -/
def finishDispatch (self : TestId) (o : TestOutcome) (s : State) : State :=
  s.onSeq fun q => { q with outcome := o, cur := (transition self o).code, pos := .dispatch }

/-! ### Error collection and display (R155, R156) -/

/-- `mask <- 0`, a checking body's first act. -/
def clearMask (s : State) : State := s.onSeq fun q => { q with mask := 0 }

/-- `mask <- mask | bit` when a check failed. -/
def flagIf (failed : Bool) (bit : Byte) (s : State) : State :=
  s.onSeq fun q => { q with mask := if failed then q.mask ||| bit else q.mask }

/-- The end of a checking body: display a mask that is not 0 and return `Error`, else return `NoError`. -/
def endBody (s : State) : State :=
  goto (if s.seq.mask ≠ 0 then .showSet .error else .ret .noError) s

/-- `ShowError`, first step: `OutSet(mask)`. -/
def showSetStep (after : TestOutcome) (s : State) : State :=
  (goto (if s.cfg.errorDisplayTicks = 0 then .ret after else .showWait after)
    (outSet s.seq.mask s)).onSeq fun q => { q with n := 1 }

/-- `ShowError`, tick number `n`. -/
def showWaitStep (after : TestOutcome) : State → State :=
  waitTick fun s =>
    if s.seq.n < s.cfg.errorDisplayTicks then s.onSeq fun q => { q with n := q.n + 1 }
    else goto (.ret after) s

/-- The positions every body shares: `ShowError`, the return, and otherwise the entry of the dispatch (log 20). -/
def sharedStep (self : TestId) (entry : State → State) (s : State) : State :=
  match s.seq.pos with
  | .showSet after => showSetStep after s
  | .showWait after => showWaitStep after s
  | .ret o => finishDispatch self o s
  | _ => beginDispatch self entry s

/-! ### The generator (R157) -/

/-- Seed: `g <- s`. -/
def seed (g : Byte) (s : State) : State := s.onSeq fun q => { q with g := g }

/-- The value of the next element, `crc8[g]`. -/
def nextG (s : State) : Byte := crc8 s.cfg.toParams s.seq.g

/-- Step: `g <- crc8[g]`. -/
def stepG (s : State) : State := seed (nextG s) s

/-! ### An FCE request (R153) -/

/-- The operands of a request that reads none. -/
def noOperands : Operands := ⟨0, 0, 0, 0⟩

/-- SEQ goes on after its request once `done` is 1; until then it has no step (R153). -/
def whenDone (go : State → State) (s : State) : State := if s.fce.done then go s else s

end Sys2Proof.Machine
end

