-- ==== Sys2Proof/Machine/DataBus.lean ====
section
/-! DEFINITION. The body `DataBus` (R160, R161). -/

namespace Sys2Proof.Machine

/-- The read-back check: `r` against the value written. -/
def dbCheckWritten (s : State) : State :=
  let d := periphAnswer s.cfg.dbWrReg s
  flagIf (d != s.seq.v) 0x01 ((periphRead s.cfg.dbWrReg s).onSeq fun q => { q with r := d })

/-- The masked compare of the paired read register against the permutation of the value written (R160, R161). -/
def dbPairedDiffers (c : Params) (v d : Byte) : Bool := d &&& c.dbCmpMask != dbPerm c v &&& c.dbCmpMask

/-- The paired-register check: `q` against `DB_PERM(v)` under `DB_CMP_MASK`. -/
def dbCheckPaired (s : State) : State :=
  let d := periphAnswer s.cfg.dbRdReg s
  flagIf (dbPairedDiffers s.cfg.toParams s.seq.v d) 0x02
    ((periphRead s.cfg.dbRdReg s).onSeq fun q => { q with q := d })

/-- The end of an iteration: the next value, or after 254 the disable ("0-254": 255 is not tested). -/
def dbNext (s : State) : State :=
  if s.seq.v.toNat < 254 then goto .dbWrite (s.onSeq fun q => { q with v := q.v + 1 })
  else goto .dbDisable s

/-- One step of `DataBus`. -/
def dataBusStep (s : State) : State :=
  match s.seq.pos with
  | .dbEnable => goto .dbWrite ((extAccess true s).onSeq fun q => { q with v := 0 })
  | .dbWrite => goto .dbReadBack (periphWrite s.cfg.dbWrReg s.seq.v s)
  | .dbReadBack => goto .dbReadPaired (dbCheckWritten s)
  | .dbReadPaired => goto .dbSettle (dbCheckPaired s)
  | .dbSettle => goto .dbWdt (settle s)
  | .dbWdt => dbNext (wdtTouch s)
  | .dbDisable => endBody (extAccess false s)
  | _ => sharedStep .dataBus (fun t => goto .dbEnable (clearMask t)) s

/-- DataBus, R160. -/
def execDataBus (s : State) : Result := .next (dataBusStep s)

end Sys2Proof.Machine
end

