-- ==== Sys2Proof/Machine/Fram.lean ====
section
/-! DEFINITION. The body `Fram`, the flash test (R162). A request is presented in one step (FCE accepts it in the same
step, R121) and its result read in another once `done` is 1 (R153; log 17). -/

namespace Sys2Proof.Machine

/-- The block index as a number. -/
def framBlock (s : State) : Nat := s.seq.b.toNat

/-- The address of byte `k` of block `b`: `BlockOffset[b] + k`. -/
def framAddress (s : State) : Nat := blockOffset s.cfg.toParams (framBlock s) + s.seq.k

/-- Whether byte `k + 1` is still in the block and the block is not abandoned. -/
def framMore (s : State) : Bool :=
  !s.seq.abort && decide (s.seq.k + 1 < blockSize s.cfg.toParams (framBlock s))

/-- Begin block `b` in pass 2 or 3: `g <- b`, `abort <- 0`, `k` from 0; go on at `p`. -/
def framBlockAt (b : Nat) (p : SeqPos) (s : State) : State :=
  goto p (s.onSeq fun q => { q with b := BitVec.ofNat 8 b, g := BitVec.ofNat 8 b, abort := false, k := 0 })

/-- Pass 2 at block `b`: its first byte, or the batch reset at once if it has none (log 41). -/
def framWriteBlock (b : Nat) (s : State) : State :=
  framBlockAt b (if 0 < blockSize s.cfg.toParams b then .frProgram else .frBatchReset) s

/-- Pass 3 from block `b`: the first byte of the next block that has one, or the end of the passes (log 41). -/
def framVerifyBlock (b : Nat) (s : State) : State :=
  match nextBlockWithBytes s.cfg.toParams b with
  | some x => framBlockAt x .frVerify s
  | none => goto .frDisable s

/-- `abort <- 1` and the flag `bit`, when a check of the block failed. -/
def framAbortIf (failed : Bool) (bit : Byte) (s : State) : State :=
  (flagIf failed bit s).onSeq fun q => { q with abort := q.abort || failed }

/-- After `IDENTIFY`: bit 3 and nothing destructive, or pass 1 from block 0. -/
def framIdentified (s : State) : State :=
  if s.fce.result = .ok then goto .frErase (s.onSeq fun q => { q with b := 0 })
  else goto .frDisable (flagIf true 0x08 s)

/-- After the erase of block `b` and its watchdog touch: the next block, or pass 2. -/
def framErased (s : State) : State :=
  if framBlock s + 1 < s.cfg.numBlocks then goto .frErase (s.onSeq fun q => { q with b := q.b + 1 })
  else framWriteBlock 0 s

/-- `PROGRAM_BYTE a, g` with the next element of the generator. -/
def framProgram (s : State) : State :=
  acceptProgramByte ⟨0, framAddress s, nextG s, 0⟩ (goto .frProgramDone (stepG s))

/-- After `PROGRAM_BYTE`: a failure counts as an immediate-read mismatch. -/
def framProgrammed (s : State) : State :=
  let failed := s.fce.result != .ok
  goto (if failed then .frWriteWdt else .frRead) (framAbortIf failed 0x02 s)

/-- After the write of byte `k` and its watchdog touch: the next byte, or the reset after the batch. -/
def framWritten (s : State) : State :=
  if framMore s then goto .frProgram (s.onSeq fun q => { q with k := q.k + 1 }) else goto .frBatchReset s

/-- After the batch reset of block `b`: the next block, or pass 3. -/
def framBatchDone (s : State) : State :=
  if framBlock s + 1 < s.cfg.numBlocks then framWriteBlock (framBlock s + 1) s else framVerifyBlock 0 s

/-- After the delayed read of byte `k` and its watchdog touch: the next byte, or the next block. -/
def framVerified (s : State) : State :=
  if framMore s then goto .frVerify (s.onSeq fun q => { q with k := q.k + 1 })
  else framVerifyBlock (framBlock s + 1) s

/-- One step of `Fram`. -/
def framStep (s : State) : State :=
  match s.seq.pos with
  | .frEnable => goto .frIdentify (flashWindow true s)
  | .frIdentify => acceptIdentify noOperands (goto .frIdentifyDone s)
  | .frIdentifyDone => whenDone framIdentified s
  | .frErase => acceptEraseBlock ⟨s.seq.b, 0, 0, 0⟩ (goto .frEraseDone s)
  | .frEraseDone => whenDone (fun t => goto .frEraseWdt (flagIf (t.fce.result != .ok) 0x01 t)) s
  | .frEraseWdt => framErased (wdtTouch s)
  | .frProgram => framProgram s
  | .frProgramDone => whenDone framProgrammed s
  | .frRead => acceptRead ⟨0, framAddress s, 0, 0⟩ (goto .frReadDone s)
  | .frReadDone =>
    whenDone (fun t => goto .frWriteWdt (framAbortIf (t.fce.rdata != t.seq.g) 0x02 t)) s
  | .frWriteWdt => framWritten (wdtTouch s)
  | .frBatchReset => acceptReset noOperands (goto .frBatchResetDone s)
  | .frBatchResetDone => whenDone framBatchDone s
  | .frVerify => acceptRead ⟨0, framAddress s, 0, 0⟩ (goto .frVerifyDone (stepG s))
  | .frVerifyDone =>
    whenDone (fun t => goto .frVerifyWdt (framAbortIf (t.fce.rdata != t.seq.g) 0x04 t)) s
  | .frVerifyWdt => framVerified (wdtTouch s)
  | .frDisable => endBody (flashWindow false s)
  | _ => sharedStep .fram (fun t => goto .frEnable (clearMask t)) s

/-- Fram, R162. -/
def execFram (s : State) : Result := .next (framStep s)

end Sys2Proof.Machine
end

