-- ==== Sys2Proof/Machine/VisualBodies.lean ====
section
/-! DEFINITION. The bodies without a check: `SoutBus` (R158), `ExtBus` (R164), `Error` (R165), and the reserved
`TestId` code (R108). -/

namespace Sys2Proof.Machine

/-- The byte `1 << i`. -/
def walkingBit (i : Nat) : Byte := 1#8 <<< i

/-! ### SoutBus -/

/-- Entry: the first line of the first pass. -/
def soutEntry (s : State) : State := goto .soutSet (s.onSeq fun q => { q with pass := 0, i := 0 })

/-- After the tick of line `i`: the next line, the next pass, or the return. -/
def soutNext (s : State) : State :=
  if s.seq.i < 7 then goto .soutSet (s.onSeq fun q => { q with i := q.i + 1 })
  else if s.seq.pass < 1 then goto .soutSet (s.onSeq fun q => { q with pass := q.pass + 1, i := 0 })
  else goto (.ret .noError) s

/-- One step of `SoutBus`. -/
def soutBusStep (s : State) : State :=
  match s.seq.pos with
  | .soutSet => goto .soutWait (outSet (walkingBit s.seq.i) s)
  | .soutWait => waitTick soutNext s
  | _ => sharedStep .soutBus soutEntry s

/-- SoutBus, R158. -/
def execSoutBus (s : State) : Result := .next (soutBusStep s)

/-! ### ExtBus -/

/-- Go on at element `k` of the pattern, or return after the last one. -/
def extBusAt (k : Nat) (s : State) : State :=
  goto (if k < s.cfg.extbusPattern.length then .ebDrive else .ret .noError)
    (s.onSeq fun q => { q with k := k })

/-- One step of `ExtBus`; `k` indexes `EXTBUS_PATTERN`. -/
def extBusStep (s : State) : State :=
  match s.seq.pos with
  | .ebDrive => goto .ebWait (extBusDrive (extbusState s.cfg.toParams s.seq.k) s)
  | .ebWait => waitTick (fun t => extBusAt (t.seq.k + 1) t) s
  | _ => sharedStep .extBus (extBusAt 0) s

/-- ExtBus, R164. -/
def execExtBus (s : State) : Result := .next (extBusStep s)

/-! ### Error and the reserved code -/

/-- Error as a dispatched state, R165: `ShowError(mask)` with whatever `mask` holds, then `NoError`. -/
def execTestError (s : State) : Result := .next (sharedStep .error (goto (.showSet .noError)) s)

/-- `TestId` code 7, R108: "it is a fault (the machine is stuck), never a dispatch". -/
def execReservedTestId (_s : State) : Result := .fault .reservedTestId

end Sys2Proof.Machine
end

