-- ==== Sys2Proof/Machine/PlisRegisters.lean ====
section
/-! DEFINITION. The body `PlisRegisters` (R159). -/

namespace Sys2Proof.Machine

/-- Entry: no flag, repetition 0. -/
def plisEntry (s : State) : State := goto .plisWait ((clearMask s).onSeq fun q => { q with rep := 0 })

/-- A loop of the body restarts its index and goes on at `p`. -/
def plisLoop (p : SeqPos) (s : State) : State := goto p (s.onSeq fun q => { q with i := 0 })

/-- The next iteration of a loop of `count` iterations at `again`, or the end of the loop. -/
def plisAgain (count : Nat) (again : SeqPos) (done : State → State) (s : State) : State :=
  if s.seq.i + 1 < count then goto again (s.onSeq fun q => { q with i := q.i + 1 }) else done s

/-- A read-back of `h` against `want`: the flag `bit` on a mismatch. -/
def plisCheck (h : Handle) (want bit : Byte) (s : State) : State :=
  flagIf (periphAnswer h s != want) bit (periphRead h s)

/-- The walking-bit write of iteration `i`: `p <- 1 << i`, written to `h`. -/
def plisWalk (h : Handle) (s : State) : State :=
  (periphWrite h (walkingBit s.seq.i) s).onSeq fun q => { q with p := walkingBit q.i }

/-- The end of a repetition: the next of the four, or the end of the body. -/
def plisRepetitionDone (s : State) : State :=
  if s.seq.rep < 3 then goto .plisWait (s.onSeq fun q => { q with rep := q.rep + 1 }) else endBody s

/-- One step of `PlisRegisters`. -/
def plisStep (s : State) : State :=
  let c := s.cfg.toParams
  match s.seq.pos with
  | .plisWait => waitTick (goto .plisVersion) s
  | .plisVersion => plisLoop .plisExtWrite (plisCheck c.versionReg c.versionExpected 0x01 s)
  | .plisExtWrite => goto .plisExtRead (plisWalk c.extSettingsReg s)
  | .plisExtRead =>
    plisAgain 8 .plisExtWrite (plisLoop .plisInitWrite) (plisCheck c.extSettingsReg s.seq.p 0x02 s)
  | .plisInitWrite => goto .plisInitRead (plisWalk c.initReg s)
  | .plisInitRead =>
    plisAgain 8 .plisInitWrite (plisLoop .plisAliasWrite) (plisCheck c.initReg s.seq.p 0x04 s)
  | .plisAliasWrite =>
    plisAgain 4 .plisAliasWrite (plisLoop .plisAliasRead)
      (periphWrite (aliasRegister c s.seq.i) (aliasSentinel c s.seq.i) s)
  | .plisAliasRead =>
    plisAgain 4 .plisAliasRead plisRepetitionDone
      (plisCheck (aliasRegister c s.seq.i) (aliasSentinel c s.seq.i) 0x08 s)
  | _ => sharedStep .plisRegisters plisEntry s

/-- PlisRegisters, R159. -/
def execPlisRegisters (s : State) : Result := .next (plisStep s)

end Sys2Proof.Machine
end

