-- ==== Sys2Proof/Machine/TwoRam.lean ====
section
/-! DEFINITION. The body `TwoRam` (R163), in the spec's own structure (D33). -/

namespace Sys2Proof.Machine

/-- A loop over the RAM region: `k` from 0 at `p`, or `done` at once for an empty region (log 41). -/
def ramLoop (p done : SeqPos) (s : State) : State :=
  goto (if 0 < s.cfg.ramLen then p else done) (s.onSeq fun q => { q with k := 0 })

/-- The next offset of a loop at `p`, or the end of the loop. -/
def ramAgain (p : SeqPos) (done : State → State) (s : State) : State :=
  if s.seq.k + 1 < s.cfg.ramLen then goto p (s.onSeq fun q => { q with k := q.k + 1 }) else done s

/-- `g <- crc8[g]; RamWrite(k, g)`. -/
def ramWriteNext (s : State) : State := ramWrite s.seq.k (nextG s) (stepG s)

/-- `RamRead(k)` against `want`: the flag `bit` on a mismatch. -/
def ramCheck (want bit : Byte) (s : State) : State := flagIf (ramAnswer s.seq.k s != want) bit (ramRead s.seq.k s)

/-- The head of tick `t`, or the end of the body after the last one. -/
def ramTickAt (t : Nat) (s : State) : State :=
  if t < s.cfg.tworamTicks then goto .trWait (s.onSeq fun q => { q with t := t }) else endBody s

/-- After the tick: the immediate pass, keyed by `KEY_IMM(t)`. -/
def ramImmediate (s : State) : State :=
  ramLoop .trImmWrite .trImmWdt (seed (keyImm s.cfg.toParams s.seq.t) s)

/-- The delayed pass, write all: keyed by `KEY_DEL(t)`. -/
def ramDelayedWrite (s : State) : State :=
  ramLoop .trDelWrite .trDelWdt (seed (keyDel s.cfg.toParams s.seq.t) s)

/-- The delayed pass, verify all: the same key. -/
def ramDelayedRead (s : State) : State :=
  ramLoop .trDelRead .trDelWdt (seed (keyDel s.cfg.toParams s.seq.t) s)

/-- One step of `TwoRam`. -/
def twoRamStep (s : State) : State :=
  match s.seq.pos with
  | .trWait => waitTick ramImmediate s
  | .trImmWrite => goto .trImmRead (ramWriteNext s)
  | .trImmRead => ramAgain .trImmWrite (goto .trImmWdt) (ramCheck s.seq.g 0x01 s)
  | .trImmWdt => ramDelayedWrite (wdtTouch s)
  | .trDelWrite => ramAgain .trDelWrite ramDelayedRead (ramWriteNext s)
  | .trDelRead => ramAgain .trDelRead (goto .trDelWdt) (stepG (ramCheck (nextG s) 0x02 s))
  | .trDelWdt => ramTickAt (s.seq.t + 1) (wdtTouch s)
  | _ => sharedStep .twoRam (fun t => ramTickAt 0 (clearMask t)) s

/-- TwoRam, R163. -/
def execTwoRam (s : State) : Result := .next (twoRamStep s)

end Sys2Proof.Machine
end

