-- ==== Sys2Proof/Machine/Dispatch.lean ====
section
/-! DEFINITION. One arm for each row of the opcode table. -/

namespace Sys2Proof.Machine

def exec (i : Instr) (s : State) : Host.Outcome State Fault Refusal :=
  match i with
  -- REQ
  | .identify o => Sys2Proof.Machine.execIdentify o s
  | .eraseBlock o => Sys2Proof.Machine.execEraseBlock o s
  | .programByte o => Sys2Proof.Machine.execProgramByte o s
  | .programBuffer o => Sys2Proof.Machine.execProgramBuffer o s
  | .read o => Sys2Proof.Machine.execRead o s
  | .reset o => Sys2Proof.Machine.execReset o s
  | .reservedRequest op o => Sys2Proof.Machine.execReservedRequest op o s
  -- CYC
  | .seqAutoselect => Sys2Proof.Machine.execSeqAutoselect s
  | .seqReset => Sys2Proof.Machine.execSeqReset s
  | .seqProgram address value => Sys2Proof.Machine.execSeqProgram address value s
  | .seqBlockErase offset => Sys2Proof.Machine.execSeqBlockErase offset s
  -- TID
  | .testError => Sys2Proof.Machine.execTestError s
  | .soutBus => Sys2Proof.Machine.execSoutBus s
  | .plisRegisters => Sys2Proof.Machine.execPlisRegisters s
  | .dataBus => Sys2Proof.Machine.execDataBus s
  | .fram => Sys2Proof.Machine.execFram s
  | .twoRam => Sys2Proof.Machine.execTwoRam s
  | .extBus => Sys2Proof.Machine.execExtBus s
  | .reservedTestId => Sys2Proof.Machine.execReservedTestId s

end Sys2Proof.Machine
end

