-- ==== Sys2Proof/Machine/Step.lean ====
section
/-! DEFINITION. One step of the machine: one agent moves (R5, R6, R17). -/

namespace Sys2Proof.Machine

/-- The step of agent `a` in state `s`: the instruction it fetches, or the step it has without one. -/
def agentStep (a : Agent) (s : State) : Result :=
  match fetch a s with
  | some (i, t) => exec i t
  | none => noFetch a s

/-- One step: the agent whose turn it is moves. -/
def step (s : State) : Host.Outcome State Fault Refusal := agentStep (turn s) (afterTurn s)

/-- Give the very next turn to `a`. -/
def State.withTurn (a : Agent) (s : State) : State := { s with agenda := a :: s.agenda }

/-- Put FCE at the first cycle of a wire command, with the latches its rows read (log 3). -/
def State.withCommand (i : Instr) (s : State) : State :=
  match i with
  | .seqAutoselect => toPhase .as1 s
  | .seqReset => enterReset 1 .ok s
  | .seqProgram address value =>
    s.onFce fun f => { f with phase := .pg1, op := 0x03, addr := address, val := value, idx := 0 }
  | .seqBlockErase offset =>
    s.onFce fun f =>
      { f with phase := .er1, op := 0x02, blk := BitVec.ofNat 8 (s.cfg.blockOffset.idxOf offset) }
  | _ => s

/-- `s` with the instruction of a table word where its agent fetches it, so that the next step runs exactly it: a
request is what the requester presents, in the requester's turn; a `TestId` code is in `cur` at the start of a dispatch
with FCE idle; a wire command is at its first phase (log 2, 3). -/
def State.withFetchWord (s : State) (nbits w : Nat) : State :=
  match encodedOfTable nbits w with
  | .req op o => State.withTurn .bench { s with bench := .start op o :: s.bench }
  | .tid code =>
    State.withTurn .core
      (toPhase .idle (s.onSeq fun q => { q with cur := code, pos := .dispatch }))
  | .cyc cycles =>
    match decodeCyc cycles with
    | .ok i => State.withTurn .core (s.withCommand i)
    | .error _ => s

end Sys2Proof.Machine
end

