-- ==== Sys2Proof/Safety.lean ====
section
/-! DEFINITION. The words claims are stated in: invariants of the machine, runs of its core, views of the byte spaces,
the spec's own algorithms for the two spins (R126, R127), and the device contract (R63 to R68) as predicates. -/

namespace Sys2Proof

/-- The requests (format REQ). -/
def Instr.isRequest : Instr → Bool
  | .identify _ | .eraseBlock _ | .programByte _ | .programBuffer _ | .read _ | .reset _
  | .reservedRequest _ _ => true
  | _ => false

/-- The wire commands (format CYC). -/
def Instr.isWire : Instr → Bool
  | .seqAutoselect | .seqReset | .seqProgram _ _ | .seqBlockErase _ => true
  | _ => false

end Sys2Proof

namespace Sys2Proof.Machine

/-! ### Runs -/

/-- One turn of the core with a tick at hand ("TICK steps whenever SEQ is held", 95_test_vectors.md P3). -/
def coreTurn (s : State) : Result := agentStep .core (tickStep s)

/-- `n` turns of the core, each with a tick at hand. -/
def coreRun : Nat → State → Result
  | 0, s => .next s
  | n + 1, s =>
    match coreTurn s with
    | .next t => coreRun n t
    | .fault r => .fault r
    | .refused r => .refused r

/-! ### Views of the byte spaces -/

/-- Byte `i` of the program buffer (R26). -/
def bufByte (s : State) (i : Nat) : Byte := s.fce.buf.read i

/-- Byte `a` of the flash array, where DEV is the reference device (R73). -/
def arrayByte (s : State) (a : Nat) : Option Byte :=
  match s.dev with
  | .oracle _ => none
  | .refDev r => some (r.arr.read a)

/-- Byte `a` of PERIPH, where PERIPH is the cells (R36). -/
def cellByte (s : State) (a : Nat) : Option Byte :=
  match s.periph with
  | .oracle _ => none
  | .cells m => some (m.read a)

/-- The PERIPH cell a body's step stores to and the byte it stores: the walking-bit and sentinel writes of R159, the
data-bus write of R160, the RAM writes of R163. -/
def periphStore (s : State) : Option (Nat × Byte) :=
  let c := s.cfg.toParams
  match s.seq.pos with
  | .plisExtWrite => some (c.extSettingsReg, walkingBit s.seq.i)
  | .plisInitWrite => some (c.initReg, walkingBit s.seq.i)
  | .plisAliasWrite => some (aliasRegister c s.seq.i, aliasSentinel c s.seq.i)
  | .dbWrite => some (c.dbWrReg, s.seq.v)
  | .trImmWrite => some (ramAddress c s.seq.k, nextG s)
  | .trDelWrite => some (ramAddress c s.seq.k, nextG s)
  | _ => none

/-- The PERIPH cell a body's step loads from and the event of a load answered `d`: the checks of R159, the two reads of R160,
the RAM reads of R163. -/
def periphLoad (s : State) (d : Byte) : Option (Nat × PeriphEvent) :=
  let c := s.cfg.toParams
  match s.seq.pos with
  | .plisVersion => some (c.versionReg, .read c.versionReg d)
  | .plisExtRead => some (c.extSettingsReg, .read c.extSettingsReg d)
  | .plisInitRead => some (c.initReg, .read c.initReg d)
  | .plisAliasRead => some (aliasRegister c s.seq.i, .read (aliasRegister c s.seq.i) d)
  | .dbReadBack => some (c.dbWrReg, .read c.dbWrReg d)
  | .dbReadPaired => some (c.dbRdReg, .read c.dbRdReg d)
  | .trImmRead => some (ramAddress c s.seq.k, .ramRead s.seq.k d)
  | .trDelRead => some (ramAddress c s.seq.k, .ramRead s.seq.k d)
  | _ => none

/-! ### Wire commands as bus events -/

/-- The bus events of a list of store cycles. -/
def storeEvents (cycles : List Cycle) : List BusEvent := cycles.map fun c => .w c.offset c.byte

/-- The store cycles a wire command's encoding stands for; none for the other formats. -/
def cyclesOf (i : Instr) : List Cycle :=
  match encode i with
  | .cyc cycles => cycles
  | .req _ _ => []
  | .tid _ => []

/-- The bus events a wire command's encoding stands for; none for the other formats. -/
def wireEvents (i : Instr) : List BusEvent := storeEvents (cyclesOf i)

/-! ### The two spins as the spec writes them, on the list of answers -/

/-- How completion detection ends (R16, R127). -/
inductive PollResult where
  | success
  | failure
  | timeout
deriving DecidableEq, Repr

/-- The loop of R127 with `n` first loads made so far: how it ends and how many loads it makes; none where the list of
answers is too short to decide. -/
def detect (bound : Nat) (exp : Byte) : Nat → List Byte → Option (PollResult × Nat)
  | _, [] => none
  | n, s1 :: rest =>
    if s1.getLsbD 7 = exp.getLsbD 7 then some (.success, 1)
    else if s1.getLsbD 5 = true then
      match rest with
      | [] => none
      | s2 :: _ => some (if s2.getLsbD 7 = exp.getLsbD 7 then .success else .failure, 2)
    else if n + 1 = bound then some (.timeout, 1)
    else (detect bound exp (n + 1) rest).map fun x => (x.1, x.2 + 1)

/-- The loop of R126 with `n` loads made so far: whether bit 3 was seen and how many loads it makes. -/
def awaitStart (bound : Nat) : Nat → List Byte → Option (Bool × Nat)
  | _, [] => none
  | n, s1 :: rest =>
    if s1.getLsbD 3 = true then some (true, 1)
    else if n + 1 = bound then some (false, 1)
    else (awaitStart bound (n + 1) rest).map fun x => (x.1, x.2 + 1)

/-- The bus events of loads at `a` with these answers. -/
def loadEvents (a : Nat) (answers : List Byte) : List BusEvent := answers.map fun d => .r a d

/-! ### FCE's invariant (R121 to R124, R135, R136) -/

/-- An accepted erase: a legal block, identity validated. -/
def Fce.erasing (c : Params) (f : Fce) : Prop :=
  f.op = 0x02 ∧ f.blk.toNat < c.numBlocks ∧ f.idValid = true

/-- An accepted program at a legal element, identity validated. -/
def Fce.programming (c : Params) (f : Fce) : Prop :=
  f.idValid = true ∧
  ((f.op = 0x03 ∧ f.idx = 0 ∧ f.addr < c.flashSize) ∨
   (f.op = 0x04 ∧ f.len.toNat ≤ c.bufMax ∧ f.addr + f.len.toNat ≤ c.flashSize ∧ f.idx.toNat < f.len.toNat))

/-- Completion detection reads the target of the running operation. -/
def Fce.polling (c : Params) (f : Fce) : Prop :=
  (f.erasing c ∧ f.paddr = blockOffset c f.blk.toNat ∧ f.exp = 0xFF) ∨
  (f.programming c ∧ f.paddr = f.addr + f.idx.toNat)

/-- What holds of FCE's registers in each phase. -/
def Fce.phaseOk (c : Params) (f : Fce) : Prop :=
  match f.phase with
  | .idle => True
  | .as1 => f.op = 0x01
  | .as2 => f.op = 0x01
  | .as3 => f.op = 0x01
  | .idr1 => f.op = 0x01
  | .idr2 => f.op = 0x01
  | .er1 => f.erasing c
  | .er2 => f.erasing c
  | .er3 => f.erasing c
  | .er4 => f.erasing c
  | .er5 => f.erasing c
  | .er6 => f.erasing c
  | .dq3 => f.erasing c ∧ f.paddr = blockOffset c f.blk.toNat ∧ f.exp = 0xFF ∧ f.pcnt < c.dq3Bound
  | .pg1 => f.programming c
  | .pg2 => f.programming c
  | .pg3 => f.programming c
  | .pg4 => f.programming c
  | .pl1 => f.polling c ∧ f.pcnt < c.pollBound
  | .pl2 => f.polling c
  | .rs1 => f.rsLeft = 1 ∨ f.rsLeft = 2
  | .rs2 => f.rsLeft = 1 ∨ f.rsLeft = 2
  | .rs3 => f.rsLeft = 1 ∨ f.rsLeft = 2
  | .rd => f.op = 0x05 ∧ f.addr < c.flashSize

/-- The registers whose width is a parameter hold no more than their bits: ADDR_W for the two addresses, the larger bound
for the count of loads (R22, R23, R136). -/
def Fce.widthsOk (c : Params) (f : Fce) : Prop :=
  f.addr < 2 ^ c.addrW ∧ f.paddr < 2 ^ c.addrW ∧ f.pcnt ≤ max c.pollBound c.dq3Bound

/-- FCE's invariant; `done` is 0 while FCE is busy (R24). -/
def FceInv (s : State) : Prop :=
  s.fce.phaseOk s.cfg.toParams ∧ (s.fce.busy = true → s.fce.done = false) ∧ s.fce.widthsOk s.cfg.toParams

/-! ### SEQ's invariant (R28, R33, R59, R105, R155) -/

/-- The body a position belongs to; none for the positions bodies share. -/
def SeqPos.owner : SeqPos → Option TestId
  | .dispatch | .showSet _ | .showWait _ | .ret _ => none
  | .soutSet | .soutWait => some .soutBus
  | .plisWait | .plisVersion | .plisExtWrite | .plisExtRead | .plisInitWrite | .plisInitRead
  | .plisAliasWrite | .plisAliasRead => some .plisRegisters
  | .dbEnable | .dbWrite | .dbReadBack | .dbReadPaired | .dbSettle | .dbWdt | .dbDisable => some .dataBus
  | .frEnable | .frIdentify | .frIdentifyDone | .frErase | .frEraseDone | .frEraseWdt
  | .frProgram | .frProgramDone | .frRead | .frReadDone | .frWriteWdt | .frBatchReset | .frBatchResetDone
  | .frVerify | .frVerifyDone | .frVerifyWdt | .frDisable => some .fram
  | .trWait | .trImmWrite | .trImmRead | .trImmWdt | .trDelWrite | .trDelRead | .trDelWdt => some .twoRam
  | .ebDrive | .ebWait => some .extBus

/-- The positions between `FlashWindow(1)` and `FlashWindow(0)` (R32, R162). -/
def SeqPos.windowOpen (p : SeqPos) : Bool := p.owner == some .fram && p != .frEnable

/-- The positions between `ExtAccess(1)` and `ExtAccess(0)` (R32, R160). -/
def SeqPos.extOpen (p : SeqPos) : Bool := p.owner == some .dataBus && p != .dbEnable

/-- The positions that hold SEQ until `done` (R153). -/
def SeqPos.awaitsDone : SeqPos → Bool
  | .frIdentifyDone | .frEraseDone | .frProgramDone | .frReadDone | .frBatchResetDone | .frVerifyDone => true
  | _ => false

/-- The positions at a `WaitTick` (R154). -/
def SeqPos.awaitsTick : SeqPos → Bool
  | .soutWait | .plisWait | .trWait | .ebWait | .showWait _ => true
  | _ => false

/-- The checking bodies (R155). -/
def TestId.checking : TestId → Bool
  | .plisRegisters | .dataBus | .fram | .twoRam => true
  | .error | .soutBus | .extBus => false

/-- The loop registers stay in the ranges of R33 and R169. -/
def Seq.rangesOk (c : Params) (q : Seq) : Prop :=
  match q.pos with
  | .soutSet | .soutWait => q.i < 8 ∧ q.pass < 2
  | .plisWait | .plisVersion => q.rep < 4
  | .plisExtWrite | .plisInitWrite => q.i < 8 ∧ q.rep < 4
  | .plisExtRead | .plisInitRead => q.i < 8 ∧ q.rep < 4 ∧ q.p = walkingBit q.i
  | .plisAliasWrite | .plisAliasRead => q.i < 4 ∧ q.rep < 4
  | .dbWrite | .dbReadBack | .dbReadPaired | .dbSettle | .dbWdt => q.v.toNat ≤ 254
  | .frErase | .frEraseDone | .frEraseWdt | .frBatchReset | .frBatchResetDone => q.b.toNat < c.numBlocks
  | .frProgram | .frProgramDone | .frRead | .frReadDone | .frWriteWdt
  | .frVerify | .frVerifyDone | .frVerifyWdt =>
    q.b.toNat < c.numBlocks ∧ q.k < blockSize c q.b.toNat
  | .trWait | .trImmWdt | .trDelWdt => q.t < c.tworamTicks
  | .trImmWrite | .trImmRead | .trDelWrite | .trDelRead => q.t < c.tworamTicks ∧ q.k < c.ramLen
  | .ebDrive | .ebWait => q.k < c.extbusPattern.length
  | _ => True

/-- `ShowError` runs with a mask that is not 0, or as the `Error` body; a checking body returns `Error` exactly when its
mask is not 0, any other body `NoError` (R155, R158, R164, R165). -/
def Seq.returnOk (self : TestId) (q : Seq) : Prop :=
  match q.pos with
  | .showSet o | .showWait o =>
    (self.checking = true ∧ o = .error ∧ q.mask ≠ 0) ∨ (self = .error ∧ o = .noError)
  | .ret o => if self.checking then (o = .error ↔ q.mask ≠ 0) else o = .noError
  | _ => True

/-- SEQ's registers while test `self` is current. -/
def Seq.ok (c : Params) (self : TestId) (q : Seq) : Prop :=
  q.cur = self.code ∧ (∀ x, q.pos.owner = some x → x = self) ∧ q.rangesOk c ∧ q.returnOk self ∧
  (self.checking = true → q.pos ≠ .dispatch → q.mask &&& ~~~ maskBits self = 0)

/-- SEQ's invariant: `cur` holds one of the seven codes and never the reserved one (R108), the body's registers are in
range, the window is enabled wherever `Fram` needs it (R59; a requester may have enabled it elsewhere, R234), external
access exactly inside `DataBus` (R32), and a body that waits for FCE waits for an operation that runs or has ended. -/
def SeqInv (s : State) : Prop :=
  (∃ self, s.seq.ok s.cfg.toParams self) ∧
  (s.seq.pos.windowOpen = true → s.winEn = true) ∧ s.extEn = s.seq.pos.extOpen ∧
  (s.seq.pos.awaitsDone = true → s.fce.busy = true ∨ s.fce.done = true)

/-! ### The memory invariant -/

/-- Every byte space of the state is in canonical form. -/
def MemoryInv (s : State) : Prop :=
  s.fce.buf.wf ∧
  (match s.dev with
   | .oracle _ => True
   | .refDev r => r.arr.wf) ∧
  (match s.periph with
   | .oracle _ => True
   | .cells m => m.wf)

/-! ### Whole operations -/

/-- The bus events of `SEQ_RESET` (R93). -/
def resetEvents : List BusEvent := [.w 0xAAA 0xAA, .w 0x555 0x55, .w 0xAAA 0xF0]

/-- `u` is `s` but for FCE's registers, DEV, the draw count, and `events` appended to the bus trace. -/
def FceOnly (s : State) (events : List BusEvent) (u : State) : Prop :=
  ∃ fce dev draws,
    u = { s with fce := fce, dev := dev, draws := draws, busTrace := s.busTrace ++ events }

/-- Request `i` is accepted in `s`, FCE makes exactly the bus cycles `events`, one a step, and ends in `u`, idle with
`done` set; nothing but FCE, DEV, the draw count and the bus trace has changed. -/
def Completes (i : Instr) (s : State) (events : List BusEvent) (u : State) : Prop :=
  ∃ t, exec i s = .next t ∧ fceRun events.length t = .next u ∧ FceOnly s events u ∧
    u.fce.phase = .idle ∧ u.fce.done = true

/-- The latches of R121 on FCE's registers; `addr` is the operand where it fits ADDR_W bits, else a free value of that width
(R22; log 42). -/
def Fce.latched (c : Params) (op : Byte) (o : Operands) (f : Fce) : Fce :=
  { f with op := op, blk := o.blk, addr := addrBits c o.addr, val := o.val, len := o.len, done := false, idx := 0 }

/-- `finish(c)` of R122 on FCE's registers. -/
def Fce.ended (c : ResultCode) (f : Fce) : Fce := { f with result := c, done := true, phase := .idle }

/-- `enter_reset(n, c)` of R122 on FCE's registers. -/
def Fce.resetting (n : BitVec 2) (c : ResultCode) (f : Fce) : Fce := { f with rsLeft := n, res := c, phase := .rs1 }

/-- The table of R121: the registers after a `Start` accepted with registers `f`. -/
def acceptance (c : Params) (op : Byte) (o : Operands) (f : Fce) : Fce :=
  let g := f.latched c op o
  if op = 0x01 then { g with phase := .as1 }
  else if op = 0x02 then
    if o.blk.toNat ≥ c.numBlocks then g.ended .invalidBlock
    else if f.idValid = false then g.ended .notIdentified
    else { g with phase := .er1 }
  else if op = 0x03 then
    if o.addr ≥ c.flashSize then g.ended .invalidAddress
    else if f.idValid = false then g.ended .notIdentified
    else { g with phase := .pg1 }
  else if op = 0x04 then
    if o.len.toNat > c.bufMax ∨ o.addr + o.len.toNat > c.flashSize then g.ended .invalidAddress
    else if f.idValid = false then g.ended .notIdentified
    else if o.len = 0 then g.resetting 1 .ok
    else { g with phase := .pg1 }
  else if op = 0x05 then
    if o.addr ≥ c.flashSize then g.ended .invalidAddress else { g with phase := .rd }
  else if op = 0x06 then g.resetting 1 .ok
  else g.ended .invalidOp

/-- The exits of R124, by `op`; `f` holds the registers the load of the exit left. -/
def pollExit (f : Fce) : PollResult → Fce
  | .success =>
    if f.op = 0x02 then f.resetting 1 .ok
    else if f.op = 0x03 then f.ended .ok
    else if f.idx.toNat + 1 < f.len.toNat then { f with idx := f.idx + 1, phase := .pg1 }
    else Fce.resetting 1 .ok { f with idx := f.idx + 1 }
  | .failure =>
    if f.op = 0x02 then f.resetting 1 .pollFailed
    else if f.op = 0x03 then f.resetting 1 .programFailed
    else Fce.resetting 2 .programFailed { f with failIdx := f.idx }
  | .timeout =>
    if f.op = 0x02 then f.resetting 1 .timeout
    else if f.op = 0x03 then f.resetting 1 .timeout
    else Fce.resetting 2 .timeout { f with failIdx := f.idx }

/-- The byte `PG4` stores and the address it stores to, on FCE's registers (R123). -/
def Fce.programCycle (f : Fce) : Cycle :=
  ⟨f.addr + f.idx.toNat, if f.op = 0x03 then f.val else f.buf.read f.idx.toNat⟩

/-- The bus cycle of each row of R123; `d` is the byte a load is answered. -/
def rowEvent (c : Params) (f : Fce) (d : Byte) : Option BusEvent :=
  match f.phase with
  | .idle => none
  | .as1 | .er1 | .er4 | .pg1 | .rs1 => some (.w 0xAAA 0xAA)
  | .as2 | .er2 | .er5 | .pg2 | .rs2 => some (.w 0x555 0x55)
  | .as3 => some (.w 0xAAA 0x90)
  | .er3 => some (.w 0xAAA 0x80)
  | .pg3 => some (.w 0xAAA 0xA0)
  | .rs3 => some (.w 0xAAA 0xF0)
  | .er6 => some (.w (blockOffset c f.blk.toNat) 0x30)
  | .pg4 => some (.w f.programCycle.offset f.programCycle.byte)
  | .idr1 => some (.r c.idMfrOffset d)
  | .idr2 => some (.r c.idDevOffset d)
  | .dq3 | .pl1 | .pl2 => some (.r f.paddr d)
  | .rd => some (.r f.addr d)

/-- The offset a load row of R123 reads; 0 in the other rows. -/
def rowAddress (c : Params) (f : Fce) : Nat :=
  match f.phase with
  | .idr1 => c.idMfrOffset
  | .idr2 => c.idDevOffset
  | .dq3 | .pl1 | .pl2 => f.paddr
  | .rd => f.addr
  | _ => 0

/-- The register writes and the next phase of each row of R123, the exits by R124. -/
def rowNext (c : Params) (f : Fce) (d : Byte) : Fce :=
  match f.phase with
  | .idle => f
  | .as1 => { f with phase := .as2 }
  | .as2 => { f with phase := .as3 }
  | .as3 => { f with phase := .idr1 }
  | .idr1 => { f with idMfr := d, phase := .idr2 }
  | .idr2 =>
    if f.idMfr = c.manufacturer ∧ d = c.deviceCode then
      Fce.resetting 1 .ok { f with idDev := d, idValid := true }
    else Fce.resetting 1 .identityMismatch { f with idDev := d, idValid := false }
  | .er1 => { f with phase := .er2 }
  | .er2 => { f with phase := .er3 }
  | .er3 => { f with phase := .er4 }
  | .er4 => { f with phase := .er5 }
  | .er5 => { f with phase := .er6 }
  | .er6 => { f with paddr := blockOffset c f.blk.toNat, exp := 0xFF, pcnt := 0, phase := .dq3 }
  | .dq3 =>
    if d.getLsbD 3 = true then { f with s1 := d, pcnt := 0, phase := .pl1 }
    else if f.pcnt + 1 = c.dq3Bound then Fce.resetting 1 .timeout { f with s1 := d, pcnt := f.pcnt + 1 }
    else { f with s1 := d, pcnt := f.pcnt + 1 }
  | .pg1 => { f with phase := .pg2 }
  | .pg2 => { f with phase := .pg3 }
  | .pg3 => { f with phase := .pg4 }
  | .pg4 =>
    { f with paddr := f.programCycle.offset, exp := f.programCycle.byte, pcnt := 0, phase := .pl1 }
  | .pl1 =>
    let g := { f with s1 := d, pcnt := f.pcnt + 1 }
    if d.getLsbD 7 = f.exp.getLsbD 7 then pollExit g .success
    else if d.getLsbD 5 = true then { g with phase := .pl2 }
    else if f.pcnt + 1 = c.pollBound then pollExit g .timeout
    else g
  | .pl2 =>
    if d.getLsbD 7 = f.exp.getLsbD 7 then pollExit { f with s2 := d } .success
    else pollExit { f with s2 := d } .failure
  | .rs1 => { f with phase := .rs2 }
  | .rs2 => { f with phase := .rs3 }
  | .rs3 =>
    if f.rsLeft - 1 ≠ 0 then { f with rsLeft := f.rsLeft - 1, phase := .rs1 }
    else { f with rsLeft := f.rsLeft - 1, result := f.res, done := true, phase := .idle }
  | .rd => { f with rdata := d, result := .ok, done := true, phase := .idle }

/-- The result of an erase whose completion detection ended so (R129). -/
def eraseResult : PollResult → ResultCode
  | .success => .ok
  | .failure => .pollFailed
  | .timeout => .timeout

/-- The result of a program whose completion detection ended so (R130, R131). -/
def programResult : PollResult → ResultCode
  | .success => .ok
  | .failure => .programFailed
  | .timeout => .timeout

/-- The bus events of the elements from `i` on of a `PROGRAM_BUFFER` at `addr`, one list of status answers for each
element tried (R131). -/
def elementEvents (addr : Nat) (bytes : Nat → Byte) : Nat → List (List Byte) → List BusEvent
  | _, [] => []
  | i, answers :: rest =>
    wireEvents (.seqProgram (addr + i) (bytes i)) ++ loadEvents (addr + i) answers ++
      elementEvents addr bytes (i + 1) rest

/-- The bound of R125 on the bus cycles of a request. -/
def cycleBound (c : Params) : Instr → Nat
  | .identify _ => 8
  | .eraseBlock _ => 6 + c.dq3Bound + c.pollBound + 1 + 3
  | .programByte _ => 4 + c.pollBound + 1 + 3
  | .programBuffer o => o.len.toNat * (4 + c.pollBound + 1) + 6
  | .read _ => 1
  | .reset _ => 3
  | _ => 0

/-! ### Wire commands as instructions -/

/-- Which cycle of wire command `i` (from 0) stands at phase `p`: its own phases in order, cycle 0 elsewhere (log 19). -/
def cycleNumber (i : Instr) (p : Phase) : Nat :=
  match i with
  | .seqAutoselect => [Phase.as1, .as2, .as3].idxOf p % 3
  | .seqReset => [Phase.rs1, .rs2, .rs3].idxOf p % 3
  | .seqProgram _ _ => [Phase.pg1, .pg2, .pg3, .pg4].idxOf p % 4
  | .seqBlockErase _ => [Phase.er1, .er2, .er3, .er4, .er5, .er6].idxOf p % 6
  | _ => 0

/-- The phase of a wire command's first cycle (R92 to R95). -/
def firstPhase : Instr → Phase
  | .seqAutoselect => .as1
  | .seqReset => .rs1
  | .seqProgram _ _ => .pg1
  | .seqBlockErase _ => .er1
  | _ => .idle

/-- `n` executions of `i`, none in between of anything else. -/
def execRun : Nat → Instr → State → Result
  | 0, _, s => .next s
  | n + 1, i, s =>
    match exec i s with
    | .next t => execRun n i t
    | .fault r => .fault r
    | .refused r => .refused r

/-- The row of the table a `TestId` is (R102). -/
def TestId.instr : TestId → Instr
  | .error => .testError
  | .soutBus => .soutBus
  | .plisRegisters => .plisRegisters
  | .dataBus => .dataBus
  | .fram => .fram
  | .twoRam => .twoRam
  | .extBus => .extBus

/-! ### Whole bodies -/

/-- Test `self` is about to be dispatched and FCE is idle. -/
def AtDispatch (self : TestId) (s : State) : Prop :=
  s.seq.cur = self.code ∧ s.seq.pos = .dispatch ∧ s.fce.phase = .idle

/-- The output events of one pass of `SoutBus`, as the example of R158 lists them. -/
def soutPass : List OutEvent :=
  ([0x01, 0x02, 0x04, 0x08, 0x10, 0x20, 0x40, 0x80] : List Byte).map fun b => ⟨.set b, b⟩

/-- The position after the last check of a checking body (R155). -/
def afterChecks (mask : Byte) : SeqPos := if mask ≠ 0 then .showSet .error else .ret .noError

/-- SEQ's registers after a step of `self`: those its body may write taken from `new`, every other one from `old` (R33,
R155; `cur` and `outcome` at the entry and the return, the position and `n` by any body). -/
def Seq.written (self : TestId) (old new : Seq) : Seq :=
  let q := { old with cur := new.cur, outcome := new.outcome, pos := new.pos, n := new.n }
  match self with
  | .error => q
  | .soutBus => { q with pass := new.pass, i := new.i }
  | .plisRegisters => { q with mask := new.mask, rep := new.rep, i := new.i, p := new.p }
  | .dataBus => { q with mask := new.mask, v := new.v, r := new.r, q := new.q }
  | .fram => { q with mask := new.mask, b := new.b, k := new.k, g := new.g, abort := new.abort }
  | .twoRam => { q with mask := new.mask, t := new.t, k := new.k, g := new.g }
  | .extBus => { q with k := new.k }

/-- Checking body `self`, dispatched in `s`, runs to its return with a tick at hand whenever it waits: `steps` turns and
`ticks` ticks for its checks with the PERIPH accesses `events`, then, where `mask` is not 0, its display; the outcome
and the next test follow from `mask`. Nothing else changes; `ext` and `rest` are what it leaves of the access enable and
of PERIPH's answers (R151, R155, R156). -/
def CheckedRun (self : TestId) (s : State) (steps ticks : Nat) (events : List PeriphEvent) (ext : Bool)
    (rest : List Byte) (mask : Byte) : Prop :=
  let shown := if mask = 0 then 0 else s.cfg.errorDisplayTicks
  ∃ t u seq, exec self.instr s = .next t ∧ coreRun (steps + (if mask = 0 then 1 else shown + 2)) t = .next u ∧
    u = { s with
      seq := seq, cycleFlag := true, extEn := ext, periph := .oracle rest
      out := if mask = 0 then s.out else mask
      outTrace := if mask = 0 then s.outTrace else s.outTrace ++ [⟨.set mask, mask⟩]
      periphTrace := s.periphTrace ++ events, dispatchTrace := s.dispatchTrace ++ [self.code]
      ticksConsumed := s.ticksConsumed + ticks + shown } ∧
    seq.mask = mask ∧ seq.outcome = (if mask = 0 then .noError else .error) ∧
    seq.cur = (transition self seq.outcome).code ∧ seq.pos = .dispatch

/-- The PERIPH accesses of one repetition of `PlisRegisters` with answers `a 0` to `a 20` (R159). -/
def plisEvents (c : Params) (a : Nat → Byte) : List PeriphEvent :=
  [.read c.versionReg (a 0)] ++
  (List.range 8).flatMap (fun j => [.write c.extSettingsReg (walkingBit j), .read c.extSettingsReg (a (1 + j))]) ++
  (List.range 8).flatMap (fun j => [.write c.initReg (walkingBit j), .read c.initReg (a (9 + j))]) ++
  (List.range 4).map (fun j => .write (aliasRegister c j) (aliasSentinel c j)) ++
  (List.range 4).map (fun j => .read (aliasRegister c j) (a (17 + j)))

/-- The mask of R159 after repetitions 0 to `n - 1` with answers `a`. -/
def plisMask (c : Params) (n : Nat) (a : Nat → Nat → Byte) : Byte :=
  (if ∀ r < n, a r 0 = c.versionExpected then 0 else 0x01) |||
  (if ∀ r < n, ∀ j ∈ List.range 8, a r (1 + j) = walkingBit j then 0 else 0x02) |||
  (if ∀ r < n, ∀ j ∈ List.range 8, a r (9 + j) = walkingBit j then 0 else 0x04) |||
  (if ∀ r < n, ∀ j ∈ List.range 4, a r (17 + j) = aliasSentinel c j then 0 else 0x08)

/-- The PERIPH accesses of iteration `v` of `DataBus` with read-back `r` and paired read `q` (R160). -/
def dbEvents (c : Params) (v r q : Byte) : List PeriphEvent :=
  [.write c.dbWrReg v, .read c.dbWrReg r, .read c.dbRdReg q, .wdtTouch]

/-- The mask of R160 after iterations 0 to `n - 1` with read-backs `r` and paired reads `q`. -/
def dbMask (c : Params) (n : Nat) (r q : Nat → Byte) : Byte :=
  (if ∀ v < n, r v = BitVec.ofNat 8 v then 0 else 0x01) |||
  (if ∀ v < n, q v &&& c.dbCmpMask = dbPerm c (BitVec.ofNat 8 v) &&& c.dbCmpMask then 0 else 0x02)

/-- The PERIPH accesses of tick `t` of `TwoRam` with immediate reads `x` and delayed reads `y` (R163). -/
def ramEvents (c : Params) (t : Nat) (x y : Nat → Byte) : List PeriphEvent :=
  (List.range c.ramLen).flatMap (fun k => [.ramWrite k (generated c (keyImm c t) k), .ramRead k (x k)]) ++
  [.wdtTouch] ++
  (List.range c.ramLen).map (fun k => .ramWrite k (generated c (keyDel c t) k)) ++
  (List.range c.ramLen).map (fun k => .ramRead k (y k)) ++
  [.wdtTouch]

/-- The mask of R163 after ticks 0 to `n - 1` with immediate reads `x` and delayed reads `y`. -/
def ramMask (c : Params) (n : Nat) (x y : Nat → Nat → Byte) : Byte :=
  (if ∀ t < n, ∀ k < c.ramLen, x t k = generated c (keyImm c t) k then 0 else 0x01) |||
  (if ∀ t < n, ∀ k < c.ramLen, y t k = generated c (keyDel c t) k then 0 else 0x02)

/-! ### The device contract (R63 to R68): premises about DEV, "never obligations of FCE" (R62) -/

namespace Contract

/-- R63: loads in read mode return the array. -/
def readMode (arr : Nat → Byte) (loads : List BusEvent) : Prop := ∀ a d, .r a d ∈ loads → d = arr a

/-- R64: loads in autoselect mode return the identity codes at the two offsets. -/
def autoselect (c : Params) (mfr dev : Byte) (loads : List BusEvent) : Prop :=
  ∀ a d, .r a d ∈ loads → (a = c.idMfrOffset → d = mfr) ∧ (a = c.idDevOffset → d = dev)

/-- R65: bit 7 of a status byte differs from the expected value's exactly while the operation runs. -/
def status (exp : Byte) (completed : Bool) (d : Byte) : Prop := d.getLsbD 7 = exp.getLsbD 7 ↔ completed = true

/-- R66: a successful erase leaves 0xFF in the block, and (general knowledge, G2) the rest unchanged. -/
def erased (c : Params) (b : Nat) (before after : Nat → Byte) : Prop :=
  (∀ a, blockOffset c b ≤ a → a < blockOffset c b + blockSize c b → after a = 0xFF) ∧
  ∀ a, ¬ (blockOffset c b ≤ a ∧ a < blockOffset c b + blockSize c b) → after a = before a

/-- R67, the precondition: wherever the value has a 1 the cell already holds 1. -/
def programmable (cell value : Byte) : Prop := cell &&& value = value

/-- R67: a successful program leaves the value, and (general knowledge, G3) the rest unchanged. -/
def programmed (address : Nat) (value : Byte) (before after : Nat → Byte) : Prop :=
  after address = value ∧ ∀ a, a ≠ address → after a = before a

end Contract

/-- The stores of a wire command arriving at the reference device in order (R68). -/
def RefDev.storeAll (c : Params) (cycles : List Cycle) (r : RefDev) : RefDev :=
  cycles.foldl (fun r x => r.store c x.offset x.byte) r

/-- `n` loads of the reference device at `a`: the answers and the device after them. -/
def RefDev.loads (c : Params) (a : Nat) : Nat → RefDev → List Byte × RefDev
  | 0, r => ([], r)
  | n + 1, r =>
    let x := r.load c a
    let y := RefDev.loads c a n x.2
    (x.1 :: y.1, y.2)

end Sys2Proof.Machine
end

