-- ==== Sys2Proof/Certificates/Slice0/Obligations.lean ====
section
/-! DEFINITION. The statements for the provers. Each docstring names the rules of spec/ it formalises; the words the
statements use are defined in Safety.lean. -/

open Sys2Proof Sys2Proof.Machine

/-! ### Encoding (30_encoding.md) -/

/-- R90: every well-formed instruction is what its encoding decodes to, whatever its operands. -/
def Obligations.DecodingInvertsEncoding : Prop :=
  ∀ (c : Params) (i : Instr), i.wellFormed c = true → decode (encode i) = .ok i

/-- R90, R100, R110: the decoder drops no bit; a carrier that decodes is the encoding of what it decodes to, and a list
of store cycles that decodes has 3, 4 or 6 of them. -/
def Obligations.EncodingInvertsDecoding : Prop :=
  (∀ (e : Encoded) (i : Instr), decode e = .ok i → encode i = e) ∧
  (∀ (cs : List Cycle) (i : Instr), decodeCyc cs = .ok i → cs.length = 3 ∨ cs.length = 4 ∨ cs.length = 6)

/-- R92 to R95, R100, R102: words written out from the spec's tables decode to what they stand for. -/
def Obligations.WrittenWordsDecode : Prop :=
  decode (.cyc [⟨0xAAA, 0xAA⟩, ⟨0x555, 0x55⟩, ⟨0xAAA, 0x90⟩]) = .ok .seqAutoselect ∧
  decode (.cyc [⟨0xAAA, 0xAA⟩, ⟨0x555, 0x55⟩, ⟨0xAAA, 0xF0⟩]) = .ok .seqReset ∧
  decode (.cyc [⟨0xAAA, 0xAA⟩, ⟨0x555, 0x55⟩, ⟨0xAAA, 0xA0⟩, ⟨0x1000, 0x12⟩]) = .ok (.seqProgram 0x1000 0x12) ∧
  decode (.cyc [⟨0xAAA, 0xAA⟩, ⟨0x555, 0x55⟩, ⟨0xAAA, 0x80⟩, ⟨0xAAA, 0xAA⟩, ⟨0x555, 0x55⟩, ⟨0x1000, 0x30⟩]) =
    .ok (.seqBlockErase 0x1000) ∧
  (∀ o, decode (.req 0x01 o) = .ok (.identify o) ∧ decode (.req 0x02 o) = .ok (.eraseBlock o) ∧
    decode (.req 0x03 o) = .ok (.programByte o) ∧ decode (.req 0x04 o) = .ok (.programBuffer o) ∧
    decode (.req 0x05 o) = .ok (.read o) ∧ decode (.req 0x06 o) = .ok (.reset o)) ∧
  decode (.tid 0) = .ok .testError ∧ decode (.tid 1) = .ok .soutBus ∧
  decode (.tid 2) = .ok .plisRegisters ∧ decode (.tid 3) = .ok .dataBus ∧
  decode (.tid 4) = .ok .fram ∧ decode (.tid 5) = .ok .twoRam ∧ decode (.tid 6) = .ok .extBus

/-! ### The machine's step (00_scope.md section 3) -/

/-- R6, R17, R121, R151: a step is one turn of one agent, and the turn runs what the agent's carrier decodes to. A
requester's `Start` runs as the request its tuple decodes to; SEQ, while FCE is idle, runs what the code in `cur`
decodes to. While FCE is busy the core's turn is one FCE step. In every state a step is the turn of exactly the agent
`turn` names: TICK's and the reset line's are stated in OnlyWaitTickClearsTheFlag and ResetLineForgetsTheOperation, a
requester's write of `buf` in BufferIsTheRequesters, its enabling of the window in WhoEnablesTheWindow; one that presents
nothing changes nothing. The schedule (`turn`) is log 6. -/
def Obligations.StepRunsTheDecodedInstruction : Prop :=
  (∀ s, step s = agentStep (turn s) (afterTurn s)) ∧
  (∀ s i, turn s = .core → s.fce.phase = .idle → decode (.tid s.seq.cur) = .ok i →
    step s = exec i (afterTurn s)) ∧
  (∀ s op o rest i, turn s = .bench → s.bench = .start op o :: rest → decode (.req op o) = .ok i →
    step s = exec i { afterTurn s with bench := rest }) ∧
  (∀ s i, turn s = .core → s.fce.phase ≠ .idle → phaseCommand s = some i → step s = exec i (afterTurn s)) ∧
  (∀ s, turn s = .core → s.fce.phase ≠ .idle → step s = fceStep (afterTurn s)) ∧
  (∀ s, ∃ rest draws, afterTurn s = { s with agenda := rest, draws := draws } ∧
    (s.agenda = turn s :: rest ∨ s.agenda = [] ∧ rest = [])) ∧
  (∀ s, turn s = .bench → s.bench = [] → step s = .next (afterTurn s))

/-- R30, R202: TICK's step sets `CycleFlag` whatever it held and changes nothing else; and no step of any agent clears
the flag but a `WaitTick` of SEQ, which consumes one tick, and a reset. -/
def Obligations.OnlyWaitTickClearsTheFlag : Prop :=
  (∀ s, agentStep .tick s = .next { s with cycleFlag := true }) ∧
  (∀ a s t, agentStep a s = .next t → s.cycleFlag = true → t.cycleFlag = false →
    a = .resetLine ∨
    (a = .core ∧ s.fce.phase = .idle ∧ s.seq.pos.awaitsTick = true ∧ t.ticksConsumed = s.ticksConsumed + 1))

/-- R38, R230: the values the spec gives for reset, and SEQ's first step after it. -/
def Obligations.ResetValues : Prop :=
  let s := State.reset
  s.seq.cur = 1 ∧ s.fce.phase = .idle ∧
  s.fce.op = 0 ∧ s.fce.blk = 0 ∧ s.fce.addr = 0 ∧ s.fce.val = 0 ∧ s.fce.len = 0 ∧
  s.fce.idx = 0 ∧ s.fce.paddr = 0 ∧ s.fce.exp = 0 ∧ s.fce.s1 = 0 ∧ s.fce.s2 = 0 ∧ s.fce.pcnt = 0 ∧
  s.fce.rsLeft = 0 ∧ s.fce.res.code = 0 ∧
  s.fce.done = false ∧ s.fce.result.code = 0 ∧ s.fce.idMfr = 0 ∧ s.fce.idDev = 0 ∧
  s.fce.failIdx = 0 ∧ s.fce.rdata = 0 ∧ s.fce.idValid = false ∧
  s.seq.outcome.code = 0 ∧ s.seq.mask = 0 ∧ s.cycleFlag = false ∧ s.out = 0x00 ∧
  s.winEn = false ∧ s.extEn = false ∧
  agentStep .core s = exec .soutBus s ∧
  ∃ t, exec .soutBus s = .next t ∧ t.seq.outcome = .noError ∧ t.dispatchTrace = [1]

/-- R230, R231: a reset in mid-operation. FCE and SEQ take their reset values, nothing is issued on the bus or to
PERIPH, and the device keeps what it holds. The model's own choices in it: `buf` lists nothing after it (log 12) and the
body-local registers are 0 (log 13), both unspecified by R38; the traces and the model's inputs stay (log 15). -/
def Obligations.ResetLineForgetsTheOperation : Prop :=
  ∀ s, ∃ t, agentStep .resetLine s = .next t ∧ t.fce = Fce.reset ∧ t.seq = Seq.reset ∧
    t.cycleFlag = false ∧ t.out = 0x00 ∧ t.winEn = false ∧ t.extEn = false ∧
    t.busTrace = s.busTrace ∧ t.periphTrace = s.periphTrace ∧ t.outTrace = s.outTrace ∧
    t.dev = s.dev ∧ t.periph = s.periph ∧ t.cfg = s.cfg

/-- The reset state meets the invariants of FCE, SEQ and the byte spaces. -/
def Obligations.ResetMeetsTheInvariants : Prop :=
  FceInv State.reset ∧ SeqInv State.reset ∧ MemoryInv State.reset

/-! ### Requests (40_flash_ops.md) -/

/-- R121, R122, R106: a `Start` presented to an idle FCE writes exactly the registers the acceptance table names, makes
no bus cycle and changes nothing outside FCE; R25: presented to a busy FCE it changes nothing. In this and every statement
on a request: of an address operand wider than its register the latch keeps a free value (log 42). -/
def Obligations.AcceptanceTable : Prop :=
  ∀ op o s,
    (s.fce.phase = .idle → exec (decodeReq op o) s = .next { s with fce := acceptance s.cfg.toParams op o s.fce }) ∧
    (s.fce.phase ≠ .idle → exec (decodeReq op o) s = .next s)

/-- What a request leaves unchanged: everything outside FCE, and of FCE every register but the seven latches of R121 and
`phase`, `result`, `rs_left` and `res`; in particular every byte of `buf` and of the array. -/
def Obligations.RequestFrame : Prop :=
  ∀ i s t, i.isRequest = true → exec i s = .next t →
    t = { s with fce := t.fce } ∧
    t.fce = { s.fce with
      phase := t.fce.phase, op := t.fce.op, blk := t.fce.blk, addr := t.fce.addr, val := t.fce.val, len := t.fce.len,
      idx := t.fce.idx, done := t.fce.done, result := t.fce.result, rsLeft := t.fce.rsLeft, res := t.fce.res } ∧
    (∀ a, bufByte t a = bufByte s a) ∧ (∀ a, arrayByte t a = arrayByte s a)

/-- R106, R199: a reserved opcode is accepted and ends at once with `InvalidOp`: no bus cycle, `id_valid` unchanged. -/
def Obligations.ReservedOpcodeEndsAtOnce : Prop :=
  ∀ op o s, (op = 0x00 ∨ 0x07 ≤ op.toNat) → s.fce.phase = .idle →
    decodeReq op o = .reservedRequest op o ∧
    Completes (.reservedRequest op o) s [] { s with fce := (s.fce.latched s.cfg.toParams op o).ended .invalidOp }

/-- R107, R192, R197, R198, R204(a): a validation error ends the operation in the acceptance step with its code and no
bus cycle; the operand check comes before the `id_valid` check. -/
def Obligations.ValidationErrorsTouchNoHardware : Prop :=
  ∀ o s, s.fce.phase = .idle →
    (s.cfg.numBlocks ≤ o.blk.toNat →
      Completes (.eraseBlock o) s [] { s with fce := (s.fce.latched s.cfg.toParams 0x02 o).ended .invalidBlock }) ∧
    (s.cfg.flashSize ≤ o.addr →
      Completes (.programByte o) s [] { s with fce := (s.fce.latched s.cfg.toParams 0x03 o).ended .invalidAddress }) ∧
    (s.cfg.bufMax < o.len.toNat ∨ s.cfg.flashSize < o.addr + o.len.toNat →
      Completes (.programBuffer o) s [] { s with fce := (s.fce.latched s.cfg.toParams 0x04 o).ended .invalidAddress }) ∧
    (s.cfg.flashSize ≤ o.addr →
      Completes (.read o) s [] { s with fce := (s.fce.latched s.cfg.toParams 0x05 o).ended .invalidAddress }) ∧
    (s.fce.idValid = false →
      (o.blk.toNat < s.cfg.numBlocks →
        Completes (.eraseBlock o) s [] { s with fce := (s.fce.latched s.cfg.toParams 0x02 o).ended .notIdentified }) ∧
      (o.addr < s.cfg.flashSize →
        Completes (.programByte o) s [] { s with fce := (s.fce.latched s.cfg.toParams 0x03 o).ended .notIdentified }) ∧
      (o.len.toNat ≤ s.cfg.bufMax → o.addr + o.len.toNat ≤ s.cfg.flashSize →
        Completes (.programBuffer o) s [] { s with fce := (s.fce.latched s.cfg.toParams 0x04 o).ended .notIdentified }))

/-- R128, R191, R196: `IDENTIFY` is always eight bus cycles, whatever the device answers, the reset sequence on both
outcomes; `id_valid` records whether the pair read is the device identity constant pair. -/
def Obligations.IdentifyOperation : Prop :=
  ∀ o s, s.fce.phase = .idle → ∃ m d u,
    Completes (.identify o) s
      ([.w 0xAAA 0xAA, .w 0x555 0x55, .w 0xAAA 0x90, .r s.cfg.idMfrOffset m, .r s.cfg.idDevOffset d] ++
        [.w 0xAAA 0xAA, .w 0x555 0x55, .w 0xAAA 0xF0]) u ∧
    let ok := m = s.cfg.manufacturer ∧ d = s.cfg.deviceCode
    let code := if ok then ResultCode.ok else .identityMismatch
    u.fce = { (s.fce.latched s.cfg.toParams 0x01 o).ended code with idMfr := m, idDev := d, idValid := decide ok, rsLeft := 0, res := code }

/-- R129, R193, R195: `ERASE_BLOCK`. A bad block and a missing identity end it with no bus cycle; else the six stores
(cycles 3 to 5 the spec's general-knowledge ones, log 16), the erase-started spin, completion detection unless the spin
timed out, then always the reset sequence; the result by how they ended. -/
def Obligations.EraseBlockOperation : Prop :=
  ∀ o s, s.fce.phase = .idle →
    (s.cfg.numBlocks ≤ o.blk.toNat →
      Completes (.eraseBlock o) s [] { s with fce := (s.fce.latched s.cfg.toParams 0x02 o).ended .invalidBlock }) ∧
    (o.blk.toNat < s.cfg.numBlocks → s.fce.idValid = false →
      Completes (.eraseBlock o) s [] { s with fce := (s.fce.latched s.cfg.toParams 0x02 o).ended .notIdentified }) ∧
    (o.blk.toNat < s.cfg.numBlocks → s.fce.idValid = true → ∃ spin poll code s1 s2 pcnt u,
      let off := blockOffset s.cfg.toParams o.blk.toNat
      Completes (.eraseBlock o) s (wireEvents (.seqBlockErase off) ++ loadEvents off (spin ++ poll) ++ resetEvents) u ∧
      (awaitStart s.cfg.dq3Bound 0 spin = some (false, spin.length) ∧ poll = [] ∧ code = .timeout ∨
        awaitStart s.cfg.dq3Bound 0 spin = some (true, spin.length) ∧
        ∃ r, detect s.cfg.pollBound 0xFF 0 poll = some (r, poll.length) ∧ code = eraseResult r) ∧
      u.fce = { (s.fce.latched s.cfg.toParams 0x02 o).ended code with
        paddr := off, exp := 0xFF, s1 := s1, s2 := s2, pcnt := pcnt, rsLeft := 0, res := code })

/-- R130, R194, R195: `PROGRAM_BYTE`. A bad address and a missing identity end it with no bus cycle; else the four
stores, completion detection, then the reset sequence unless it ended in success. -/
def Obligations.ProgramByteOperation : Prop :=
  ∀ o s, s.fce.phase = .idle →
    (s.cfg.flashSize ≤ o.addr →
      Completes (.programByte o) s [] { s with fce := (s.fce.latched s.cfg.toParams 0x03 o).ended .invalidAddress }) ∧
    (o.addr < s.cfg.flashSize → s.fce.idValid = false →
      Completes (.programByte o) s [] { s with fce := (s.fce.latched s.cfg.toParams 0x03 o).ended .notIdentified }) ∧
    (o.addr < s.cfg.flashSize → s.fce.idValid = true → ∃ poll r s1 s2 pcnt u,
      detect s.cfg.pollBound o.val 0 poll = some (r, poll.length) ∧
      Completes (.programByte o) s
        (wireEvents (.seqProgram o.addr o.val) ++ loadEvents o.addr poll ++
          (if r = .success then [] else resetEvents)) u ∧
      u.fce = { (s.fce.latched s.cfg.toParams 0x03 o).ended (programResult r) with
        paddr := o.addr, exp := o.val, s1 := s1, s2 := s2, pcnt := pcnt,
        rsLeft := if r = .success then s.fce.rsLeft else 0,
        res := if r = .success then s.fce.res else programResult r })

/-- R131, R194, R195: `PROGRAM_BUFFER`. A bad range and a missing identity end it with no bus cycle; else its elements
are programmed in address order, each as four stores and completion detection, up to the first that fails. If all
succeed (none for an empty buffer) one reset sequence follows and the result is `Ok`; else the index of the one that
failed is in `fail_idx` and two follow. -/
def Obligations.ProgramBufferOperation : Prop :=
  ∀ o s, s.fce.phase = .idle →
    (s.cfg.bufMax < o.len.toNat ∨ s.cfg.flashSize < o.addr + o.len.toNat →
      Completes (.programBuffer o) s [] { s with fce := (s.fce.latched s.cfg.toParams 0x04 o).ended .invalidAddress }) ∧
    (o.len.toNat ≤ s.cfg.bufMax → o.addr + o.len.toNat ≤ s.cfg.flashSize → s.fce.idValid = false →
      Completes (.programBuffer o) s [] { s with fce := (s.fce.latched s.cfg.toParams 0x04 o).ended .notIdentified }) ∧
    (o.len.toNat ≤ s.cfg.bufMax → o.addr + o.len.toNat ≤ s.cfg.flashSize → s.fce.idValid = true →
    ∃ tried paddr exp s1 s2 pcnt u,
    let ends := fun (i : Nat) (answers : List Byte) (r : PollResult) =>
      detect s.cfg.pollBound (bufByte s i) 0 answers = some (r, answers.length)
    let registers := fun (code : ResultCode) (idx failIdx : BitVec 16) =>
      { (s.fce.latched s.cfg.toParams 0x04 o).ended code with
        idx := idx, failIdx := failIdx, paddr := paddr, exp := exp, s1 := s1, s2 := s2, pcnt := pcnt,
        rsLeft := 0, res := code }
    (∀ i (h : i < tried.length), ends i tried[i] .success) ∧
    (tried.length = o.len.toNat ∧ u.fce = registers .ok o.len s.fce.failIdx ∧
      Completes (.programBuffer o) s (elementEvents o.addr (bufByte s) 0 tried ++ resetEvents) u ∨
     tried.length < o.len.toNat ∧ ∃ answers r, ends tried.length answers r ∧ r ≠ .success ∧
      u.fce = registers (programResult r) (BitVec.ofNat 16 tried.length) (BitVec.ofNat 16 tried.length) ∧
      Completes (.programBuffer o) s
        (elementEvents o.addr (bufByte s) 0 (tried ++ [answers]) ++ resetEvents ++ resetEvents) u))

/-- R132: `READ` of a legal address is one load and nothing else, with no look at `id_valid`; a bad address ends it with
no bus cycle. -/
def Obligations.ReadOperation : Prop :=
  ∀ o s, s.fce.phase = .idle →
    (s.cfg.flashSize ≤ o.addr →
      Completes (.read o) s [] { s with fce := (s.fce.latched s.cfg.toParams 0x05 o).ended .invalidAddress }) ∧
    (o.addr < s.cfg.flashSize → ∃ d u,
      Completes (.read o) s [.r o.addr d] u ∧
      u.fce = { (s.fce.latched s.cfg.toParams 0x05 o).ended .ok with rdata := d })

/-- R133: `RESET` is the three stores of the reset sequence and `Ok`; every other register stays, `id_valid` with them. -/
def Obligations.ResetOperation : Prop :=
  ∀ o s, s.fce.phase = .idle → ∃ u,
    Completes (.reset o) s [.w 0xAAA 0xAA, .w 0x555 0x55, .w 0xAAA 0xF0] u ∧
    u.fce = { (s.fce.latched s.cfg.toParams 0x06 o).ended .ok with rsLeft := 0, res := .ok }

/-! ### Wire commands and the phase table -/

/-- R92 to R95: run from its first phase, a wire command issues exactly the stores of its encoding, one a step. Cycles 3
to 5 of `SEQ_BLOCK_ERASE` are the spec's general-knowledge ones (log 16), not D0's. -/
def Obligations.WireCommandIssuesItsEncoding : Prop :=
  ∀ i s, i.isWire = true → s.fce.phase = firstPhase i →
    (∀ a v, i = .seqProgram a v → a < s.cfg.flashSize) → (∀ a, i = .seqBlockErase a → a < s.cfg.flashSize) →
    ∃ t, execRun (cyclesOf i).length i s = .next t ∧ FceOnly s (wireEvents i) t

/-- R123: executing a wire command at a phase of its own completes: it issues the one cycle of its encoding that the phase
stands for. That at a phase not its own it begins with its first cycle is the model's choice (log 19): R123 has no such
row. Only the data store of a program and the confirm store of an erase need an offset in the window. The frame: nothing outside FCE, DEV and the trace changes, of FCE only `phase` and the registers
rows RS3, ER6 and PG4 write, no byte of `buf`, and no byte of the array but at the offset stored to. -/
def Obligations.WireCommandCycle : Prop :=
  ∀ i s, i.isWire = true →
    (∀ a v, i = .seqProgram a v → s.fce.phase = .pg4 → a < s.cfg.flashSize) →
    (∀ a, i = .seqBlockErase a → s.fce.phase = .er6 → a < s.cfg.flashSize) →
    ∃ t x, (cyclesOf i)[cycleNumber i s.fce.phase]? = some x ∧ exec i s = .next t ∧ FceOnly s [.w x.offset x.byte] t ∧
      t.dev = (if s.winEn then s.dev.store s.cfg.toParams x.offset x.byte else s.dev) ∧
      t.fce = { s.fce with
        phase := t.fce.phase, paddr := t.fce.paddr, exp := t.fce.exp, pcnt := t.fce.pcnt, rsLeft := t.fce.rsLeft,
        result := t.fce.result, done := t.fce.done } ∧
      (∀ a, bufByte t a = bufByte s a) ∧
      (∀ a, a ≠ x.offset → arrayByte t a = arrayByte s a)

/-- R50, R51 (log 21): the confirm store of an erase and the data store of a program at an offset the window does not
have are no accesses: the machine stops by name. -/
def Obligations.StoreOutsideTheWindowFaults : Prop :=
  ∀ s a v, s.cfg.flashSize ≤ a →
    (s.fce.phase = .pg4 → exec (.seqProgram a v) s = .fault .outsideWindow) ∧
    (s.fce.phase = .er6 → exec (.seqBlockErase a) s = .fault .outsideWindow)

/-- R123, R124 (rows ER3 to ER5: log 16): while FCE is busy its step is one row of the phase table: exactly one bus
cycle, the row's register writes, the row's next phase, for every byte a load may be answered. -/
def Obligations.PhaseTable : Prop :=
  ∀ s, FceInv s → s.fce.phase ≠ .idle → ∃ d e t,
    d = devAnswer (rowAddress s.cfg.toParams s.fce) s ∧ rowEvent s.cfg.toParams s.fce d = some e ∧
    fceStep s = .next t ∧ FceOnly s [e] t ∧ t.fce = rowNext s.cfg.toParams s.fce d

/-- The frame of every FCE step, load rows included: no byte of `buf` and no latch of R22 changes; DEV changes only
with the window enabled (R59, U4); each result register of R24 changes only in its row: `result` and `done` in RS3, RD and
where PL1 or PL2 sees a byte program succeed, `fail_idx` where PL1 or PL2 sees a buffer's element not succeed. -/
def Obligations.FceStepFrame : Prop :=
  ∀ s t, fceStep s = .next t →
    t.fce.op = s.fce.op ∧ t.fce.blk = s.fce.blk ∧ t.fce.addr = s.fce.addr ∧ t.fce.val = s.fce.val ∧
    t.fce.len = s.fce.len ∧ (∀ a, bufByte t a = bufByte s a) ∧ (s.winEn = false → t.dev = s.dev) ∧
    (s.fce.phase ≠ .rd → t.fce.rdata = s.fce.rdata) ∧ (s.fce.phase ≠ .idr1 → t.fce.idMfr = s.fce.idMfr) ∧
    (s.fce.phase ≠ .idr2 → t.fce.idDev = s.fce.idDev ∧ t.fce.idValid = s.fce.idValid) ∧
    (let completed := (devAnswer s.fce.paddr s).getLsbD 7 = s.fce.exp.getLsbD 7
     let polls := s.fce.phase = .pl1 ∨ s.fce.phase = .pl2
     (s.fce.phase ≠ .rs3 → s.fce.phase ≠ .rd → ¬ (polls ∧ s.fce.op = 0x03 ∧ completed) →
       t.fce.result = s.fce.result ∧ t.fce.done = s.fce.done) ∧
     (¬ (polls ∧ s.fce.op = 0x04 ∧ ¬ completed) → t.fce.failIdx = s.fce.failIdx))

/-- R126: the erase-started spin runs as the loop of the rule, whatever the device answers. -/
def Obligations.EraseStartedSpin : Prop :=
  ∀ s, FceInv s → s.fce.phase = .dq3 → s.fce.pcnt = 0 → ∃ answers seen t,
    awaitStart s.cfg.dq3Bound 0 answers = some (seen, answers.length) ∧
    fceRun answers.length s = .next t ∧
    FceOnly s (loadEvents (blockOffset s.cfg.toParams s.fce.blk.toNat) answers) t ∧
    (seen = true → t.fce.phase = .pl1 ∧ t.fce.pcnt = 0) ∧
    (seen = false → t.fce.phase = .rs1 ∧ t.fce.rsLeft = 1 ∧ t.fce.res = .timeout ∧ t.fce.pcnt = s.cfg.dq3Bound)

/-- R127, R124, R204(b): completion detection runs as the loop of the rule, whatever the device answers, and leaves by
the exit of its operation. -/
def Obligations.CompletionDetection : Prop :=
  ∀ s, FceInv s → s.fce.phase = .pl1 → s.fce.pcnt = 0 → ∃ answers r t s1 s2 pcnt,
    detect s.cfg.pollBound s.fce.exp 0 answers = some (r, answers.length) ∧
    fceRun answers.length s = .next t ∧ FceOnly s (loadEvents s.fce.paddr answers) t ∧
    t.fce = pollExit { s.fce with s1 := s1, s2 := s2, pcnt := pcnt } r

/-- R97, R109: FCE's decisions do not depend on status bits 6, 4, 2, 1 and 0. -/
def Obligations.OtherStatusBitsAreIgnored : Prop :=
  ∀ s d d' rest, s.winEn = true → s.dev = .oracle (d :: rest) →
    (s.fce.phase = .dq3 ∨ s.fce.phase = .pl1 ∨ s.fce.phase = .pl2) →
    d.getLsbD 7 = d'.getLsbD 7 → d.getLsbD 5 = d'.getLsbD 5 → d.getLsbD 3 = d'.getLsbD 3 →
    ∀ t, fceStep s = .next t → ∃ t', fceStep { s with dev := .oracle (d' :: rest) } = .next t' ∧
      t'.dev = t.dev ∧ { t'.fce with s1 := 0, s2 := 0 } = { t.fce with s1 := 0, s2 := 0 }

/-- R125: every accepted operation ends within the rule's bound on its bus cycles, whatever DEV answers. -/
def Obligations.EveryOperationEnds : Prop :=
  ∀ i s, i.isRequest = true → s.fce.phase = .idle →
    ∃ events u, Completes i s events u ∧ events.length ≤ cycleBound s.cfg.toParams i

/-- R134: an operation that issued a bus cycle ends with the three stores of the reset sequence, but for `PROGRAM_BYTE`
on success and `READ`, which issues one load and no store. -/
def Obligations.ExitPathRestoresReadMode : Prop :=
  ∀ i s events u, i.isRequest = true → s.fce.phase = .idle → Completes i s events u → events ≠ [] →
    (∃ before, events = before ++ [.w 0xAAA 0xAA, .w 0x555 0x55, .w 0xAAA 0xF0]) ∨
    (∃ o, i = .programByte o ∧ u.fce.result = .ok) ∨
    (∃ o d, i = .read o ∧ events = [.r o.addr d])

/-- R135, R27: every store FCE issues but the unlock and command cycles of the autoselect and reset sequences is issued
with `id_valid` 1; so is every cycle of an erase and of a program. -/
def Obligations.NoDestructiveCycleWithoutIdentity : Prop :=
  ∀ s t a d, FceInv s → step s = .next t → t.busTrace = s.busTrace ++ [.w a d] →
    s.fce.idValid = true ∨
    (s.fce.op = 0x01 ∨ s.fce.phase = .rs1 ∨ s.fce.phase = .rs2 ∨ s.fce.phase = .rs3) ∧
    ((a = 0xAAA ∧ (d = 0xAA ∨ d = 0x90 ∨ d = 0xF0)) ∨ (a = 0x555 ∧ d = 0x55))

/-- R27: the only steps that write `id_valid` are row IDR2 of an `IDENTIFY`, which sets it exactly when the two bytes
are the identity pair, and a reset, which clears it. -/
def Obligations.IdValidRecordsTheIdentity : Prop :=
  ∀ s t, step s = .next t →
    t.fce.idValid = s.fce.idValid ∨
    (turn s = .resetLine ∧ t.fce.idValid = false) ∨
    (turn s = .core ∧ s.fce.phase = .idr2 ∧
      (t.fce.idValid = true ↔ t.fce.idMfr = s.cfg.manufacturer ∧ t.fce.idDev = s.cfg.deviceCode))

/-- FCE's registers stay what R121 to R124 and R136 make of them in each phase, and within their widths (R22, R23), under
every step of every agent. -/
def Obligations.StepKeepsFceInvariant : Prop := ∀ s t, FceInv s → step s = .next t → FceInv t

/-- R26: a requester's write of `buf` takes effect at its index and nowhere else, and FCE never writes `buf`. The model's
own choices in it: R26 says there is no `buf[i]` at or above BUF_MAX and not what writing one does, that it stops with the
fault `outsideBuffer` is log 21; that a write while busy takes effect is log 23 (U6). -/
def Obligations.BufferIsTheRequesters : Prop :=
  (∀ s i d rest, s.bench = .bufWrite i d :: rest →
    (i < s.cfg.bufMax → ∃ t, agentStep .bench s = .next t ∧ bufByte t i = d ∧
      (∀ a, a ≠ i → bufByte t a = bufByte s a) ∧
      t = { s with bench := rest, fce := { s.fce with buf := t.fce.buf } }) ∧
    (s.cfg.bufMax ≤ i → agentStep .bench s = .fault .outsideBuffer)) ∧
  (∀ a s t x, agentStep a s = .next t → bufByte t x ≠ bufByte s x →
    a = .resetLine ∨ a = .bench ∧ ∃ d rest, s.bench = .bufWrite x d :: rest)

/-! ### The sequencer (41_sequencer.md) -/

/-- R150: the transition table, all fourteen entries, as the codes the return of a dispatch assigns. -/
def Obligations.TransitionTable : Prop :=
  ∀ s, ∀ row ∈ ([(.error, .soutBus, .soutBus), (.soutBus, .plisRegisters, .soutBus),
        (.plisRegisters, .dataBus, .plisRegisters), (.dataBus, .fram, .dataBus), (.fram, .twoRam, .fram),
        (.twoRam, .extBus, .twoRam), (.extBus, .extBus, .extBus)] : List (TestId × TestId × TestId)),
      (s.seq.pos = .ret .noError → exec row.1.instr s =
        .next { s with seq := { s.seq with outcome := .noError, cur := row.2.1.code, pos := .dispatch } }) ∧
      (s.seq.pos = .ret .error → exec row.1.instr s =
        .next { s with seq := { s.seq with outcome := .error, cur := row.2.2.code, pos := .dispatch } })

/-- R151, R7: a dispatch begins with `outcome <- NoError` and is observed, for every body and whatever the last one
left; the return assigns `cur` by the table (TransitionTable); and R28: no other step writes `cur` but a reset. -/
def Obligations.CurIsWrittenByTheDispatcher : Prop :=
  (∀ self s, s.seq.pos = .dispatch → ∃ t, exec (TestId.instr self) s = .next t ∧ t.seq.outcome = .noError ∧
    t.dispatchTrace = s.dispatchTrace ++ [self.code] ∧ t.seq.cur = s.seq.cur ∧ t.fce = s.fce ∧ t.out = s.out) ∧
  (∀ s t, step s = .next t → t.seq.cur ≠ s.seq.cur →
    turn s = .resetLine ∨ turn s = .core ∧ s.fce.phase = .idle ∧ ∃ o, s.seq.pos = .ret o)

/-- R154, R69: `WaitTick` in every body that has one: with the flag clear SEQ is held and nothing at all changes; with
it set the flag is cleared in the same step, one tick is counted and the body goes on. No other step of a body, its
entry among them, touches the flag. -/
def Obligations.WaitTickTestsAndClears : Prop :=
  (∀ self s, s.seq.ok s.cfg.toParams self → s.seq.pos.awaitsTick = true →
    (s.cycleFlag = false → exec (TestId.instr self) s = .next s) ∧
    (s.cycleFlag = true → ∃ t, exec (TestId.instr self) s = .next t ∧ t.cycleFlag = false ∧
      t.ticksConsumed = s.ticksConsumed + 1 ∧ t.seq ≠ s.seq)) ∧
  (∀ self s t, s.seq.pos.awaitsTick = false → exec (TestId.instr self) s = .next t →
    t.cycleFlag = s.cycleFlag ∧ t.ticksConsumed = s.ticksConsumed)

/-- R153, R60: SEQ, waiting for a request it presented, has no step of its own until `done` is 1; while FCE is busy a turn
of the core leaves SEQ's registers (R28 to R33), PERIPH and every observation but the bus trace as they were. -/
def Obligations.SeqIsHeldUntilDone : Prop :=
  (∀ s, s.seq.pos.awaitsDone = true → s.fce.done = false → exec .fram s = .next s) ∧
  (∀ s t, s.fce.phase ≠ .idle → agentStep .core s = .next t →
    t.seq = s.seq ∧ t.out = s.out ∧ t.outTrace = s.outTrace ∧ t.winEn = s.winEn ∧ t.extEn = s.extEn ∧
    t.periph = s.periph ∧ t.periphTrace = s.periphTrace ∧ t.cycleFlag = s.cycleFlag ∧
    t.ticksConsumed = s.ticksConsumed ∧ t.dispatchTrace = s.dispatchTrace)

/-- R108: the reserved `TestId` code is a fault, never a dispatch; no test has it and no step writes it to `cur`; code 0
is legal, and from the invariant's states it is not entered. -/
def Obligations.ReservedTestIdFaults : Prop :=
  decode (.tid 7) = .ok .reservedTestId ∧ (∀ s, exec .reservedTestId s = .fault .reservedTestId) ∧
  (∀ self, TestId.code self ≠ 7) ∧ State.reset.seq.cur = 1 ∧
  (∀ s t, step s = .next t → s.seq.cur ≠ 7 → t.seq.cur ≠ 7) ∧
  decode (.tid 0) = .ok .testError ∧
  (∀ s t, SeqInv s → step s = .next t → s.seq.cur ≠ 0 → t.seq.cur ≠ 0)

/-- What a step of any body leaves unchanged: the parameters, the flash window's trace, DEV, the inputs; every byte of
`buf` and of the array; the byte of every PERIPH cell but the one `periphStore` computes; `out` but at an `OutSet`;
the enables but at their own primitives; FCE's registers but at a request of `Fram`, and then `id_valid` stays; of SEQ's
registers all but `cur`, `outcome`, the position, `n` and those the body's own rule writes. -/
def Obligations.BodyStepFrame : Prop :=
  ∀ self s t, exec (TestId.instr self) s = .next t →
    t.cfg = s.cfg ∧ t.busTrace = s.busTrace ∧ t.dev = s.dev ∧ t.agenda = s.agenda ∧ t.bench = s.bench ∧
    (∀ a, bufByte t a = bufByte s a) ∧ (∀ a, arrayByte t a = arrayByte s a) ∧
    (∀ a, (∀ d, periphStore s ≠ some (a, d)) → cellByte t a = cellByte s a) ∧
    (s.seq.pos ≠ .soutSet → (∀ o, s.seq.pos ≠ .showSet o) → t.out = s.out ∧ t.outTrace = s.outTrace) ∧
    (s.seq.pos ≠ .frEnable → s.seq.pos ≠ .frDisable → t.winEn = s.winEn) ∧
    (s.seq.pos ≠ .dbEnable → s.seq.pos ≠ .dbDisable → t.extEn = s.extEn) ∧
    (self ≠ .fram → t.fce = s.fce) ∧ t.fce.idValid = s.fce.idValid ∧ t.seq = Seq.written self s.seq t.seq

/-- R159, R160, R163 on the well-behaved PERIPH (log 11; what `ext_en` holds does not matter, log 44): the byte a body stores
is in the cell `periphStore` computes, every other cell as it was; and a body's load from the cell `periphLoad` computes is
answered the byte of that cell, the paired read register the permutation of the data-bus write register's, and leaves the
cells as they were. -/
def Obligations.PeriphStoreLands : Prop :=
  ∀ self s m, s.seq.pos.owner = some self → s.periph = .cells m →
    (∀ a d, periphStore s = some (a, d) → ∃ t, exec (TestId.instr self) s = .next t ∧
      cellByte t a = some d ∧ ∀ x, x ≠ a → cellByte t x = cellByte s x) ∧
    (∀ a, let d := if a = s.cfg.dbRdReg then dbPerm s.cfg.toParams (m.read s.cfg.dbWrReg) else m.read a
      ∀ e, periphLoad s d = some (a, e) → ∃ t, exec (TestId.instr self) s = .next t ∧ t.periph = .cells m ∧
        t.periphTrace = s.periphTrace ++ [e])

/-- R158: `SoutBus`, whole, with a tick at hand whenever it waits: two passes of eight lines, sixteen ticks, `NoError`,
`mask` untouched, then `PlisRegisters`. -/
def Obligations.SoutBusBody : Prop :=
  ∀ s, AtDispatch .soutBus s → ∃ t u, exec .soutBus s = .next t ∧ coreRun 33 t = .next u ∧
    ∃ seq, u = { s with
      seq := seq, cycleFlag := true, out := 0x80, outTrace := s.outTrace ++ soutPass ++ soutPass,
      dispatchTrace := s.dispatchTrace ++ [1], ticksConsumed := s.ticksConsumed + 16 } ∧
    seq.cur = 2 ∧ seq.outcome = .noError ∧ seq.pos = .dispatch ∧ seq.mask = s.seq.mask

/-- R159: `PlisRegisters`, whole, for every answer of PERIPH (`a r n` is answer `n` of repetition `r`): the accesses in
the rule's order, four ticks, the mask bit of each check that failed in any repetition. -/
def Obligations.PlisRegistersBody : Prop :=
  ∀ s a rest, AtDispatch .plisRegisters s →
    s.periph = .oracle ((List.range 4).flatMap (fun r => (List.range 21).map (a r)) ++ rest) →
    CheckedRun .plisRegisters s 168 4
      ((List.range 4).flatMap (fun r => plisEvents s.cfg.toParams (a r))) s.extEn rest
      (plisMask s.cfg.toParams 4 a)

/-- R160: `DataBus`, whole, for every answer of PERIPH: access enabled, the values 0 to 254 in order, each written, read
back, and compared through the paired register, access disabled; no tick. -/
def Obligations.DataBusBody : Prop :=
  ∀ s r q rest, AtDispatch .dataBus s →
    s.periph = .oracle ((List.range 255).flatMap (fun v => [r v, q v]) ++ rest) →
    CheckedRun .dataBus s 1277 0
      ([.extAccess true] ++
        (List.range 255).flatMap (fun v => dbEvents s.cfg.toParams (BitVec.ofNat 8 v) (r v) (q v)) ++
        [.extAccess false]) false rest
      (dbMask s.cfg.toParams 255 r q)

/-- R163, R157: `TwoRam`, whole, for every answer of PERIPH: one tick each pair of passes, the immediate and the delayed
pass with the generator seeded by their own keys, the bits of the reads that differed. -/
def Obligations.TwoRamBody : Prop :=
  ∀ s x y rest, AtDispatch .twoRam s →
    s.periph = .oracle ((List.range s.cfg.tworamTicks).flatMap
      (fun t => (List.range s.cfg.ramLen).map (x t) ++ (List.range s.cfg.ramLen).map (y t)) ++ rest) →
    CheckedRun .twoRam s (s.cfg.tworamTicks * (4 * s.cfg.ramLen + 3)) s.cfg.tworamTicks
      ((List.range s.cfg.tworamTicks).flatMap (fun t => ramEvents s.cfg.toParams t (x t) (y t))) s.extEn rest
      (ramMask s.cfg.toParams s.cfg.tworamTicks x y)

/-- R164, R166: `ExtBus`, whole, with a tick at hand whenever it waits: the pattern driven in order, one tick each,
`NoError`, and `ExtBus` again. -/
def Obligations.ExtBusBody : Prop :=
  ∀ s, AtDispatch .extBus s → ∃ t u, exec .extBus s = .next t ∧
    coreRun (2 * s.cfg.extbusPattern.length + 1) t = .next u ∧
    ∃ seq, u = { s with
      seq := seq, cycleFlag := true, periphTrace := s.periphTrace ++ s.cfg.extbusPattern.map .extBus,
      dispatchTrace := s.dispatchTrace ++ [6], ticksConsumed := s.ticksConsumed + s.cfg.extbusPattern.length } ∧
    seq.cur = 6 ∧ seq.outcome = .noError ∧ seq.pos = .dispatch ∧ seq.mask = s.seq.mask

/-- R156, R165: `ShowError(mask)` as the subroutine of any body (the outcome `o` is returned after it): `out` takes the
mask and keeps it, ERROR_DISPLAY_TICKS ticks are consumed, `mask`, `cur` and `outcome` stay. And the `Error` body, whole:
`ShowError` of the mask it finds, `NoError`, then `SoutBus`. -/
def Obligations.ShowErrorDisplaysTheMask : Prop :=
  (∀ self o s, s.seq.cur = TestId.code self → s.fce.phase = .idle → s.seq.pos = .showSet o →
    ∃ seq flag u, coreRun (s.cfg.errorDisplayTicks + 1) s = .next u ∧ u = { s with
      seq := seq, cycleFlag := flag, out := s.seq.mask, outTrace := s.outTrace ++ [⟨.set s.seq.mask, s.seq.mask⟩],
      ticksConsumed := s.ticksConsumed + s.cfg.errorDisplayTicks } ∧
    seq.pos = .ret o ∧ seq.mask = s.seq.mask ∧ seq.cur = s.seq.cur ∧ seq.outcome = s.seq.outcome) ∧
  (∀ s, AtDispatch .error s → ∃ seq t u, exec .testError s = .next t ∧
    coreRun (s.cfg.errorDisplayTicks + 2) t = .next u ∧ u = { s with
      seq := seq, cycleFlag := true, out := s.seq.mask, outTrace := s.outTrace ++ [⟨.set s.seq.mask, s.seq.mask⟩],
      dispatchTrace := s.dispatchTrace ++ [0], ticksConsumed := s.ticksConsumed + s.cfg.errorDisplayTicks } ∧
    seq.cur = 1 ∧ seq.outcome = .noError ∧ seq.pos = .dispatch ∧ seq.mask = s.seq.mask)

/-- R162: `Fram`, line by line: every primitive call of the rule, what it writes, and where the body goes on. -/
def Obligations.FramBody : Prop :=
  ∀ s : State,
    let c := s.cfg.toParams
    let q := s.seq
    let next := fun (seq : Seq) => Host.Outcome.next (φ := Fault) (ρ := Refusal) { s with seq := seq }
    let touched := fun (seq : Seq) =>
      Host.Outcome.next (φ := Fault) (ρ := Refusal) { s with seq := seq, periphTrace := s.periphTrace ++ [.wdtTouch] }
    let request := fun (op : Byte) (o : Operands) (seq : Seq) =>
      Host.Outcome.next (φ := Fault) (ρ := Refusal) { s with seq := seq, fce := acceptance c op o s.fce }
    let address := blockOffset c q.b.toNat + q.k
    let g := crc8 c q.g
    let more := q.abort = false ∧ q.k + 1 < blockSize c q.b.toNat
    let block := fun (x : Nat) (pos : SeqPos) =>
      { q with b := BitVec.ofNat 8 x, g := BitVec.ofNat 8 x, abort := false, k := 0, pos := pos }
    let writeBlock := fun (x : Nat) => block x (if 0 < blockSize c x then .frProgram else .frBatchReset)
    let verifyBlock := fun (x : Nat) => block x .frVerify
    let emptyFrom := fun (lo : Nat) => ∀ y, lo ≤ y → y < c.numBlocks → blockSize c y = 0
    let firstFrom := fun (lo x : Nat) =>
      lo ≤ x ∧ x < c.numBlocks ∧ 0 < blockSize c x ∧ ∀ y, lo ≤ y → y < x → blockSize c y = 0
    (q.pos = .dispatch → exec .fram s = .next { s with
      seq := { q with outcome := .noError, mask := 0, pos := .frEnable }, dispatchTrace := s.dispatchTrace ++ [4] }) ∧
    (q.pos = .frEnable → exec .fram s = .next { s with
      seq := { q with pos := .frIdentify }, winEn := true, periphTrace := s.periphTrace ++ [.flashWindow true] }) ∧
    (q.pos = .frDisable → exec .fram s = .next { s with
      seq := { q with pos := afterChecks q.mask }, winEn := false,
      periphTrace := s.periphTrace ++ [.flashWindow false] }) ∧
    (s.fce.phase = .idle →
      (q.pos = .frIdentify → exec .fram s = request 0x01 noOperands { q with pos := .frIdentifyDone }) ∧
      (q.pos = .frErase → exec .fram s = request 0x02 ⟨q.b, 0, 0, 0⟩ { q with pos := .frEraseDone }) ∧
      (q.pos = .frProgram → exec .fram s = request 0x03 ⟨0, address, g, 0⟩ { q with g := g, pos := .frProgramDone }) ∧
      (q.pos = .frRead → exec .fram s = request 0x05 ⟨0, address, 0, 0⟩ { q with pos := .frReadDone }) ∧
      (q.pos = .frBatchReset → exec .fram s = request 0x06 noOperands { q with pos := .frBatchResetDone }) ∧
      (q.pos = .frVerify → exec .fram s = request 0x05 ⟨0, address, 0, 0⟩ { q with g := g, pos := .frVerifyDone })) ∧
    (s.fce.done = true →
      (q.pos = .frIdentifyDone → exec .fram s = next
        (if s.fce.result = .ok then { q with b := 0, pos := .frErase }
         else { q with mask := q.mask ||| 0x08, pos := .frDisable })) ∧
      (q.pos = .frEraseDone → exec .fram s = next
        (if s.fce.result = .ok then { q with pos := .frEraseWdt }
         else { q with mask := q.mask ||| 0x01, pos := .frEraseWdt })) ∧
      (q.pos = .frProgramDone → exec .fram s = next
        (if s.fce.result = .ok then { q with pos := .frRead }
         else { q with mask := q.mask ||| 0x02, abort := true, pos := .frWriteWdt })) ∧
      (q.pos = .frReadDone → exec .fram s = next
        (if s.fce.rdata = q.g then { q with pos := .frWriteWdt }
         else { q with mask := q.mask ||| 0x02, abort := true, pos := .frWriteWdt })) ∧
      (q.pos = .frVerifyDone → exec .fram s = next
        (if s.fce.rdata = q.g then { q with pos := .frVerifyWdt }
         else { q with mask := q.mask ||| 0x04, abort := true, pos := .frVerifyWdt })) ∧
      (q.pos = .frBatchResetDone → q.b.toNat + 1 < c.numBlocks → exec .fram s = next
        (writeBlock (q.b.toNat + 1))) ∧
      (q.pos = .frBatchResetDone → c.numBlocks ≤ q.b.toNat + 1 →
        (∀ x, firstFrom 0 x → exec .fram s = next (verifyBlock x)) ∧
        (emptyFrom 0 → exec .fram s = next { q with pos := .frDisable }))) ∧
    (q.pos = .frEraseWdt → q.b.toNat + 1 < c.numBlocks →
      exec .fram s = touched { q with b := q.b + 1, pos := .frErase }) ∧
    (q.pos = .frEraseWdt → c.numBlocks ≤ q.b.toNat + 1 → exec .fram s = touched (writeBlock 0)) ∧
    (q.pos = .frWriteWdt → exec .fram s = touched
      (if more then { q with k := q.k + 1, pos := .frProgram } else { q with pos := .frBatchReset })) ∧
    (q.pos = .frVerifyWdt → more → exec .fram s = touched { q with k := q.k + 1, pos := .frVerify }) ∧
    (q.pos = .frVerifyWdt → ¬ more →
      (∀ x, firstFrom (q.b.toNat + 1) x → exec .fram s = touched (verifyBlock x)) ∧
      (emptyFrom (q.b.toNat + 1) → exec .fram s = touched { q with pos := .frDisable }))

/-- R162, D0's section 8 (program P4b): against a device whose identity bytes are not the pair, `Fram` issues `IDENTIFY`'s
eight bus cycles and nothing destructive, closes the window, and is left with mask 0x08 alone. -/
def Obligations.FramRefusesTheWrongDevice : Prop :=
  ∀ s m d rest, AtDispatch .fram s → s.dev = .oracle (m :: d :: rest) →
    ¬ (m = s.cfg.manufacturer ∧ d = s.cfg.deviceCode) →
    ∃ t u, exec .fram s = .next t ∧ coreRun 12 t = .next u ∧
      u.busTrace = s.busTrace ++ [.w 0xAAA 0xAA, .w 0x555 0x55, .w 0xAAA 0x90, .r s.cfg.idMfrOffset m,
        .r s.cfg.idDevOffset d, .w 0xAAA 0xAA, .w 0x555 0x55, .w 0xAAA 0xF0] ∧
      u.seq.mask = 0x08 ∧ u.seq.pos = .showSet .error ∧ u.winEn = false ∧ u.fce.idValid = false ∧
      u.fce.result = .identityMismatch ∧ u.ticksConsumed = s.ticksConsumed ∧ u.out = s.out

/-- R155, R105, R109: a checking body clears `mask` on entry; after it no step of the body clears a bit, and none sets a
bit its row of R105 leaves 0; with a mask that is not 0 it goes to `ShowError` and only through it to `Error`, with a
mask of 0 to `NoError`; and the outcome is `Error` exactly when the mask is not 0. Any other body returns `NoError`. -/
def Obligations.OutcomeIsTheMask : Prop :=
  (∀ self s, self.checking = true → s.seq.pos = .dispatch → ∃ t, exec (TestId.instr self) s = .next t ∧ t.seq.mask = 0) ∧
  (∀ self s t, s.seq.ok s.cfg.toParams self → s.seq.pos ≠ .dispatch → exec (TestId.instr self) s = .next t →
    (self.checking = true →
      t.seq.mask &&& s.seq.mask = s.seq.mask ∧ t.seq.mask &&& ~~~ maskBits self = 0 ∧
      (∀ o, t.seq.pos = .showSet o → o = .error ∧ t.seq.mask ≠ 0) ∧
      (t.seq.pos = .ret .noError → t.seq.mask = 0) ∧
      (t.seq.pos = .ret .error → s.seq.pos = .showSet .error ∨ s.seq.pos = .showWait .error) ∧
      (t.seq.pos = .dispatch → (t.seq.outcome = .error ↔ t.seq.mask ≠ 0))) ∧
    (self.checking = false → t.seq.pos = .dispatch → t.seq.outcome = .noError))

/-- R59, R247: SEQ presents a request to FCE only while the flash window is enabled. R32, R234: `win_en` is written by SEQ's
two `FlashWindow` calls, by a requester that enables the window, and by a reset; `ext_en` by SEQ's two `ExtAccess` calls and
a reset. The requester's enabling changes nothing else but the trace of it (that trace: log 25). -/
def Obligations.WhoEnablesTheWindow : Prop :=
  (∀ s t, SeqInv s → s.fce.phase = .idle → agentStep .core s = .next t → t.fce ≠ s.fce → s.winEn = true) ∧
  (∀ s rest, s.bench = .openWindow :: rest → agentStep .bench s = .next { s with
    bench := rest, winEn := true, periphTrace := s.periphTrace ++ [.flashWindow true] }) ∧
  (∀ a s t, agentStep a s = .next t →
    (t.winEn ≠ s.winEn → a = .resetLine ∨ (a = .bench ∧ ∃ rest, s.bench = .openWindow :: rest) ∨
      a = .core ∧ s.fce.phase = .idle ∧ s.seq.cur = 4 ∧ (s.seq.pos = .frEnable ∨ s.seq.pos = .frDisable)) ∧
    (t.extEn ≠ s.extEn → a = .resetLine ∨
      a = .core ∧ s.fce.phase = .idle ∧ s.seq.cur = 3 ∧ (s.seq.pos = .dbEnable ∨ s.seq.pos = .dbDisable)))

/-- R28, R33, R59, R105, R108, R155: SEQ's registers stay in their ranges, `cur` on a code that is a test, the window enabled
wherever `Fram` needs it, external access exactly inside `DataBus`, under every step of every agent. -/
def Obligations.StepKeepsSeqInvariant : Prop := ∀ s t, SeqInv s → step s = .next t → SeqInv t

/-- R166: `Error` is never entered and `ExtBus` never left, by any step but a reset. -/
def Obligations.ErrorIsNeverDispatched : Prop :=
  ∀ s t, SeqInv s → step s = .next t → turn s ≠ .resetLine →
    (s.seq.cur ≠ 0 → t.seq.cur ≠ 0) ∧ (s.seq.cur = 6 → t.seq.cur = 6)

/-- R8, R151: "There is no terminal state": from every state of the invariants every step has a next state, but where a
requester writes a byte of `buf` that does not exist (log 21). -/
def Obligations.EveryStepHasANextState : Prop :=
  ∀ s, FceInv s → SeqInv s →
    (∀ i d rest, turn s = .bench → s.bench = .bufWrite i d :: rest → i < s.cfg.bufMax) →
    ∃ t, step s = .next t

/-- R17, R153, R154: with a tick at hand the core always moves: FCE while it is busy, else SEQ; nothing but a missing
tick ever holds it. -/
def Obligations.NothingHoldsTheCoreButATick : Prop :=
  ∀ s, FceInv s → SeqInv s → ∃ t, coreTurn s = .next t ∧ (t.fce ≠ s.fce ∨ t.seq ≠ s.seq ∨ t.busTrace ≠ s.busTrace)

/-- The byte spaces keep their canonical form under every step of every agent, so equal contents are equal states. -/
def Obligations.StepKeepsMemoryCanonical : Prop := ∀ s t, MemoryInv s → step s = .next t → MemoryInv t

/-! ### Output bus, generator, permutation -/

/-- R31: the four calls of the output bus, "clear" as and-not, and the physical level of the lines. -/
def Obligations.OutputBusCalls : Prop :=
  ∀ (s : State) (b : Byte),
    outSet b s = { s with out := b, outTrace := s.outTrace ++ [⟨.set b, b⟩] } ∧
    outSetMask b s = { s with out := s.out ||| b, outTrace := s.outTrace ++ [⟨.setMask b, s.out ||| b⟩] } ∧
    outClrMask b s = { s with out := s.out &&& ~~~b, outTrace := s.outTrace ++ [⟨.clrMask b, s.out &&& ~~~b⟩] } ∧
    outTglMask b s = { s with out := s.out ^^^ b, outTrace := s.outTrace ++ [⟨.tglMask b, s.out ^^^ b⟩] } ∧
    ∀ i < 8, (physicalLines s).getLsbD i = (s.out.getLsbD i != s.cfg.outInvert.getLsbD i)

/-- R161: under a configuration that holds the defaults, what `DB_PERM` answers, with the rule's five example values, and
when `DataBus` finds a paired read wrong; and the record's defaults are these. -/
def Obligations.DefaultPermutation : Prop :=
  ({} : Params).dbPerm = defaultDbPermTable ∧ ({} : Params).dbCmpMask = 0x0F ∧
  ∀ c : Params, c.dbPerm = defaultDbPermTable → c.dbCmpMask = 0x0F →
    (∀ v : Byte, ∀ i < 4, (dbPerm c v).getLsbD (3 - i) = v.getLsbD i ∧ (dbPerm c v).getLsbD (4 + i) = false) ∧
    dbPerm c 0x01 = 0x08 ∧ dbPerm c 0x02 = 0x04 ∧ dbPerm c 0x06 = 0x06 ∧ dbPerm c 0x0B = 0x0D ∧ dbPerm c 0xF3 = 0x0C ∧
    ∀ v d : Byte, dbPairedDiffers c v d = false ↔ ∀ i < 4, d.getLsbD (3 - i) = v.getLsbD i

/-! ### The reference device meets the contract (20_memory.md sections 4 and 6) -/

/-- R64, R68, R63: in read mode with no command begun, `RefDev` answers the two identity offsets with its codes after
`SEQ_AUTOSELECT`, changes nothing by such loads, and after `SEQ_RESET` is in read mode again, array as it was; and
`SEQ_RESET` brings it back from a failed operation. -/
def Obligations.RefDevIdentifiesAndResets : Prop :=
  ∀ (c : Params) (r : RefDev), c.idMfrOffset ≠ c.idDevOffset → r.cpos = .p0 →
    ((r.mode = .read ∨ r.mode = .autosel) →
      let r' := RefDev.storeAll c (cyclesOf .seqAutoselect) r
      r'.load c c.idMfrOffset = (r.simMfr, r') ∧ r'.load c c.idDevOffset = (r.simDev, r') ∧ r'.arr = r.arr ∧
      RefDev.storeAll c (cyclesOf .seqReset) r' = { r with mode := .read }) ∧
    (r.mode = .fail → RefDev.storeAll c (cyclesOf .seqReset) r = { r with mode := .read })

/-- R66, R129 on the reference device: an `ERASE_BLOCK` of a healthy device ends `Ok` and leaves every byte of the block
0xFF, every other byte as it was, and the device in read mode. -/
def Obligations.EraseBlockErases : Prop :=
  ∀ s o r, s.fce.phase = .idle → s.winEn = true → s.fce.idValid = true → o.blk.toNat < s.cfg.numBlocks →
    0 < blockSize s.cfg.toParams o.blk.toNat → s.dev = .refDev r → r.mode = .read → r.cpos = .p0 →
    r.currentDraws.eraseBad = false → r.currentDraws.dq3Reads < s.cfg.dq3Bound →
    r.currentDraws.eraseReads < s.cfg.pollBound →
    ∃ events u r', Completes (.eraseBlock o) s events u ∧ u.fce.result = .ok ∧ u.dev = .refDev r' ∧ r'.mode = .read ∧
      Contract.erased s.cfg.toParams o.blk.toNat r.arr.read r'.arr.read

/-- R67, R130 on the reference device: a `PROGRAM_BYTE` of a healthy device whose cell holds 1 wherever the value does
ends `Ok`, and `READ` then gives the value, every other byte as it was; one that needs a bit raised ends in
`ProgramFailed` with the device in read mode again. -/
def Obligations.ProgramByteThenReadGivesTheValue : Prop :=
  ∀ s o r, s.fce.phase = .idle → s.winEn = true → s.fce.idValid = true → o.addr < s.cfg.flashSize →
    s.dev = .refDev r → r.mode = .read → r.cpos = .p0 →
    (Contract.programmable (r.arr.read o.addr) o.val → r.currentDraws.progReads < s.cfg.pollBound →
      ∃ events u r' w, Completes (.programByte o) s events u ∧ u.fce.result = .ok ∧ u.dev = .refDev r' ∧
        r'.mode = .read ∧ Contract.programmed o.addr o.val r.arr.read r'.arr.read ∧
        Completes (.read o) u [.r o.addr o.val] w ∧ w.fce.rdata = o.val) ∧
    (¬ Contract.programmable (r.arr.read o.addr) o.val → r.currentDraws.dq5Reads < s.cfg.pollBound →
      ∃ events u r', Completes (.programByte o) s events u ∧ u.fce.result = .programFailed ∧ u.dev = .refDev r' ∧
        r'.mode = .read)

/-- R162, R157 on the reference device: on a healthy board (right identity, no busy loads, no failing erase, blocks
that have bytes) `Fram` ends with `NoError`, consumes no tick, and leaves every block holding its generated sequence. -/
def Obligations.FramPassesOnAHealthyBoard : Prop :=
  ∀ s r, AtDispatch .fram s → s.dev = .refDev r → r.mode = .read → r.cpos = .p0 → r.opDraws = [] →
    r.simMfr = s.cfg.manufacturer → r.simDev = s.cfg.deviceCode →
    (∀ b < s.cfg.numBlocks, 0 < blockSize s.cfg.toParams b) →
    ∃ n u r', coreRun n s = .next u ∧ u.seq.pos = .dispatch ∧ u.seq.cur = 5 ∧ u.seq.outcome = .noError ∧
      u.seq.mask = 0 ∧ u.winEn = false ∧ u.ticksConsumed = s.ticksConsumed ∧ u.out = s.out ∧ u.dev = .refDev r' ∧
      ∀ b < s.cfg.numBlocks, ∀ k < blockSize s.cfg.toParams b,
        r'.arr.read (blockOffset s.cfg.toParams b + k) = generated s.cfg.toParams (BitVec.ofNat 8 b) k
end

