-- ==== Sys2Proof/Laws/Memory.lean ====
section
/-! SUPPORT. The laws of byte spaces: every operation keeps the canonical form, a read after a write, and that equal
contents are equal lists. -/

namespace Sys2Proof.Machine.Memory

/-! ### Reads -/

@[simp] theorem read_nil (a : Nat) : read [] a = unlisted := rfl

theorem read_of_not_listed {m : Memory} {a : Nat} (h : ∀ c ∈ m, c.1 ≠ a) : m.read a = unlisted := by
  induction m with
  | nil => rfl
  | cons c rest ih =>
    simp only [List.mem_cons, forall_eq_or_imp] at h
    simp [read, h.1, ih h.2]

theorem read_filter (m : Memory) (keep : Nat → Bool) (a : Nat) :
    read (m.filter (fun c => keep c.1)) a = if keep a then m.read a else unlisted := by
  induction m with
  | nil => simp
  | cons c rest ih =>
    by_cases hk : keep c.1 <;> by_cases hc : c.1 = a
    · subst hc; simp [read, hk]
    · simp [read, hk, hc, ih]
    · subst hc
      simpa [List.filter_cons, hk] using ih
    · simp [read, hk, hc, ih]

theorem read_drop (m : Memory) (a x : Nat) : read (m.drop a) x = if x = a then unlisted else m.read x := by
  have h := read_filter m (fun n => decide (n ≠ a)) x
  by_cases hx : x = a <;> simp_all [drop]

theorem read_insert_same (m : Memory) (a : Nat) (d : Byte) : read (m.insert a d) a = d := by
  induction m with
  | nil => simp [insert, read]
  | cons c rest ih =>
    unfold insert
    split_ifs with h1 h2
    · simp [read, Nat.ne_of_lt h1, ih]
    · simp [read]
    · simp [read]

theorem read_insert_other (m : Memory) (a x : Nat) (d : Byte) (hx : x ≠ a) :
    read (m.insert a d) x = m.read x := by
  induction m with
  | nil => simp [insert, read, Ne.symm hx]
  | cons c rest ih =>
    unfold insert
    split_ifs with h1 h2
    · simp [read, ih]
    · simp [read, h2, Ne.symm hx]
    · simp [read, Ne.symm hx]

/-- A read after a write to the same address gives the value written. -/
@[simp] theorem read_write_same (m : Memory) (a : Nat) (d : Byte) : read (m.write a d) a = d := by
  unfold write
  split_ifs with h
  · simp [read_drop, h]
  · exact read_insert_same m a d

/-- A write leaves every other address alone. -/
theorem read_write_other (m : Memory) (a x : Nat) (d : Byte) (hx : x ≠ a) : read (m.write a d) x = m.read x := by
  unfold write
  split_ifs with h
  · simp [read_drop, hx]
  · exact read_insert_other m a x d hx

/-- Both cases of a read after a write. -/
theorem read_write (m : Memory) (a x : Nat) (d : Byte) :
    read (m.write a d) x = if x = a then d else m.read x := by
  by_cases hx : x = a
  · subst hx; simp
  · simp [hx, read_write_other m a x d hx]

/-- An erased range reads as 0xFF, the rest as before. -/
theorem read_erase (m : Memory) (base len x : Nat) :
    read (m.erase base len) x = if base ≤ x ∧ x < base + len then unlisted else m.read x := by
  have h := read_filter m (fun n => decide (¬ (base ≤ n ∧ n < base + len))) x
  by_cases hx : base ≤ x ∧ x < base + len
  · simpa [erase, hx] using h
  · simp only [erase, hx, if_false]
    rw [h]
    simp [hx]

/-! ### The canonical form -/

theorem wf_nil : wf [] := ⟨List.Pairwise.nil, fun _ h => absurd h List.not_mem_nil⟩

theorem wf_filter {m : Memory} (h : m.wf) (keep : Host.Cell → Bool) : wf (m.filter keep) :=
  ⟨h.1.filter _, fun c hc => h.2 c (List.mem_filter.mp hc).1⟩

theorem wf_drop {m : Memory} (h : m.wf) (a : Nat) : wf (m.drop a) := wf_filter h _

theorem wf_erase {m : Memory} (h : m.wf) (base len : Nat) : wf (m.erase base len) := wf_filter h _

theorem mem_insert {m : Memory} {a : Nat} {d : Byte} {c : Host.Cell} (hc : c ∈ m.insert a d) :
    c = (a, d) ∨ c ∈ m := by
  induction m with
  | nil => simpa [insert] using hc
  | cons x rest ih =>
    unfold insert at hc
    split_ifs at hc with h1 h2
    · rcases List.mem_cons.mp hc with rfl | h
      · simp
      · rcases ih h with h | h <;> simp [h]
    · rcases List.mem_cons.mp hc with rfl | h <;> simp [*]
    · rcases List.mem_cons.mp hc with rfl | h
      · simp
      · exact .inr h

theorem wf_insert {m : Memory} (h : m.wf) (a : Nat) {d : Byte} (hd : d ≠ unlisted) : wf (m.insert a d) := by
  refine ⟨?_, fun c hc => ?_⟩
  · obtain ⟨hp, -⟩ := h
    induction m with
    | nil => simp [insert]
    | cons x rest ih =>
      have ⟨hx, hr⟩ := List.pairwise_cons.mp hp
      unfold insert
      split_ifs with h1 h2
      · refine List.pairwise_cons.mpr ⟨fun c hc => ?_, ih hr⟩
        rcases mem_insert hc with rfl | hc
        · exact h1
        · exact hx c hc
      · exact List.pairwise_cons.mpr ⟨fun c hc => h2 ▸ hx c hc, hr⟩
      · refine List.pairwise_cons.mpr ⟨fun c hc => ?_, hp⟩
        rcases List.mem_cons.mp hc with rfl | hc
        · show a < c.1; omega
        · exact lt_trans (show a < x.1 by omega) (hx c hc)
  · rcases mem_insert hc with rfl | hc
    · exact hd
    · exact h.2 c hc

/-- A write keeps the canonical form. -/
theorem wf_write {m : Memory} (h : m.wf) (a : Nat) (d : Byte) : wf (m.write a d) := by
  unfold write
  split_ifs with hd
  · exact wf_drop h a
  · exact wf_insert h a hd

theorem read_head_tail {c : Host.Cell} {rest : Memory} (h : wf (c :: rest)) : rest.read c.1 = unlisted :=
  read_of_not_listed fun x hx => Nat.ne_of_gt ((List.pairwise_cons.mp h.1).1 x hx)

theorem wf_tail {c : Host.Cell} {rest : Memory} (h : wf (c :: rest)) : wf rest :=
  ⟨(List.pairwise_cons.mp h.1).2, fun x hx => h.2 x (List.mem_cons_of_mem _ hx)⟩

/-- Every address below the first listed one is unlisted. -/
theorem read_below {c : Host.Cell} {rest : Memory} (h : wf (c :: rest)) {a : Nat} (ha : a < c.1) :
    read (c :: rest) a = unlisted := by
  refine read_of_not_listed fun x hx => ?_
  rcases List.mem_cons.mp hx with rfl | hx
  · exact Nat.ne_of_gt ha
  · exact Nat.ne_of_gt (lt_trans ha ((List.pairwise_cons.mp h.1).1 x hx))

/-- Canonical memories with equal contents are equal data. -/
theorem ext_of_read {m n : Memory} (hm : m.wf) (hn : n.wf) (h : ∀ a, m.read a = n.read a) : m = n := by
  induction m generalizing n with
  | nil =>
    cases n with
    | nil => rfl
    | cons c rest => exact absurd (by simpa [read] using (h c.1).symm) (hn.2 c (by simp))
  | cons x xs ih =>
    cases n with
    | nil => exact absurd (by simpa [read] using h x.1) (hm.2 x (by simp))
    | cons y ys =>
      have hkey : x.1 = y.1 := by
        rcases Nat.lt_trichotomy x.1 y.1 with hlt | heq | hgt
        · have := h x.1
          rw [read_below hn hlt] at this
          exact absurd (by simpa [read] using this) (hm.2 x (by simp))
        · exact heq
        · have := h y.1
          rw [read_below hm hgt] at this
          exact absurd (by simpa [read] using this.symm) (hn.2 y (by simp))
      have hval : x.2 = y.2 := by simpa [read, hkey] using h x.1
      have hrest : xs = ys := by
        refine ih (wf_tail hm) (wf_tail hn) fun a => ?_
        by_cases ha : x.1 = a
        · subst ha
          rw [read_head_tail hm, hkey, read_head_tail hn]
        · have := h a
          simpa [read, ha, show ¬ y.1 = a from hkey ▸ ha] using this
      rw [Prod.ext hkey hval, hrest]

end Sys2Proof.Machine.Memory
end

