-- ==== Sys2Proof/Laws/State.lean ====
section
/-! SUPPORT. One lemma for each field of State after each update, true by rfl, so that no later proof unfolds a
record update. They are proved after `cases s` so that simp uses them as equations and not as definitional unfoldings:
an unfolding inside the condition of an `if` would leave the condition's Decidable instance behind. -/

namespace Sys2Proof.Machine

variable (s : State)

/-! ### State.onFce -/

@[simp] theorem State.onFce_cfg (f : Fce → Fce) : (s.onFce f).cfg = s.cfg := by cases s; rfl
@[simp] theorem State.onFce_fce (f : Fce → Fce) : (s.onFce f).fce = f s.fce := by cases s; rfl
@[simp] theorem State.onFce_seq (f : Fce → Fce) : (s.onFce f).seq = s.seq := by cases s; rfl
@[simp] theorem State.onFce_cycleFlag (f : Fce → Fce) : (s.onFce f).cycleFlag = s.cycleFlag := by cases s; rfl
@[simp] theorem State.onFce_out (f : Fce → Fce) : (s.onFce f).out = s.out := by cases s; rfl
@[simp] theorem State.onFce_winEn (f : Fce → Fce) : (s.onFce f).winEn = s.winEn := by cases s; rfl
@[simp] theorem State.onFce_extEn (f : Fce → Fce) : (s.onFce f).extEn = s.extEn := by cases s; rfl
@[simp] theorem State.onFce_dev (f : Fce → Fce) : (s.onFce f).dev = s.dev := by cases s; rfl
@[simp] theorem State.onFce_periph (f : Fce → Fce) : (s.onFce f).periph = s.periph := by cases s; rfl
@[simp] theorem State.onFce_agenda (f : Fce → Fce) : (s.onFce f).agenda = s.agenda := by cases s; rfl
@[simp] theorem State.onFce_bench (f : Fce → Fce) : (s.onFce f).bench = s.bench := by cases s; rfl
@[simp] theorem State.onFce_draws (f : Fce → Fce) : (s.onFce f).draws = s.draws := by cases s; rfl
@[simp] theorem State.onFce_busTrace (f : Fce → Fce) : (s.onFce f).busTrace = s.busTrace := by cases s; rfl
@[simp] theorem State.onFce_outTrace (f : Fce → Fce) : (s.onFce f).outTrace = s.outTrace := by cases s; rfl
@[simp] theorem State.onFce_periphTrace (f : Fce → Fce) : (s.onFce f).periphTrace = s.periphTrace := by cases s; rfl
@[simp] theorem State.onFce_dispatchTrace (f : Fce → Fce) : (s.onFce f).dispatchTrace = s.dispatchTrace := by cases s; rfl
@[simp] theorem State.onFce_ticksConsumed (f : Fce → Fce) : (s.onFce f).ticksConsumed = s.ticksConsumed := by cases s; rfl

/-! ### State.onSeq -/

@[simp] theorem State.onSeq_cfg (f : Seq → Seq) : (s.onSeq f).cfg = s.cfg := by cases s; rfl
@[simp] theorem State.onSeq_fce (f : Seq → Seq) : (s.onSeq f).fce = s.fce := by cases s; rfl
@[simp] theorem State.onSeq_seq (f : Seq → Seq) : (s.onSeq f).seq = f s.seq := by cases s; rfl
@[simp] theorem State.onSeq_cycleFlag (f : Seq → Seq) : (s.onSeq f).cycleFlag = s.cycleFlag := by cases s; rfl
@[simp] theorem State.onSeq_out (f : Seq → Seq) : (s.onSeq f).out = s.out := by cases s; rfl
@[simp] theorem State.onSeq_winEn (f : Seq → Seq) : (s.onSeq f).winEn = s.winEn := by cases s; rfl
@[simp] theorem State.onSeq_extEn (f : Seq → Seq) : (s.onSeq f).extEn = s.extEn := by cases s; rfl
@[simp] theorem State.onSeq_dev (f : Seq → Seq) : (s.onSeq f).dev = s.dev := by cases s; rfl
@[simp] theorem State.onSeq_periph (f : Seq → Seq) : (s.onSeq f).periph = s.periph := by cases s; rfl
@[simp] theorem State.onSeq_agenda (f : Seq → Seq) : (s.onSeq f).agenda = s.agenda := by cases s; rfl
@[simp] theorem State.onSeq_bench (f : Seq → Seq) : (s.onSeq f).bench = s.bench := by cases s; rfl
@[simp] theorem State.onSeq_draws (f : Seq → Seq) : (s.onSeq f).draws = s.draws := by cases s; rfl
@[simp] theorem State.onSeq_busTrace (f : Seq → Seq) : (s.onSeq f).busTrace = s.busTrace := by cases s; rfl
@[simp] theorem State.onSeq_outTrace (f : Seq → Seq) : (s.onSeq f).outTrace = s.outTrace := by cases s; rfl
@[simp] theorem State.onSeq_periphTrace (f : Seq → Seq) : (s.onSeq f).periphTrace = s.periphTrace := by cases s; rfl
@[simp] theorem State.onSeq_dispatchTrace (f : Seq → Seq) : (s.onSeq f).dispatchTrace = s.dispatchTrace := by cases s; rfl
@[simp] theorem State.onSeq_ticksConsumed (f : Seq → Seq) : (s.onSeq f).ticksConsumed = s.ticksConsumed := by cases s; rfl

/-! ### State.countDraw -/

@[simp] theorem State.countDraw_cfg : (s.countDraw).cfg = s.cfg := by cases s; rfl
@[simp] theorem State.countDraw_fce : (s.countDraw).fce = s.fce := by cases s; rfl
@[simp] theorem State.countDraw_seq : (s.countDraw).seq = s.seq := by cases s; rfl
@[simp] theorem State.countDraw_cycleFlag : (s.countDraw).cycleFlag = s.cycleFlag := by cases s; rfl
@[simp] theorem State.countDraw_out : (s.countDraw).out = s.out := by cases s; rfl
@[simp] theorem State.countDraw_winEn : (s.countDraw).winEn = s.winEn := by cases s; rfl
@[simp] theorem State.countDraw_extEn : (s.countDraw).extEn = s.extEn := by cases s; rfl
@[simp] theorem State.countDraw_dev : (s.countDraw).dev = s.dev := by cases s; rfl
@[simp] theorem State.countDraw_periph : (s.countDraw).periph = s.periph := by cases s; rfl
@[simp] theorem State.countDraw_agenda : (s.countDraw).agenda = s.agenda := by cases s; rfl
@[simp] theorem State.countDraw_bench : (s.countDraw).bench = s.bench := by cases s; rfl
@[simp] theorem State.countDraw_draws : (s.countDraw).draws = s.draws + 1 := by cases s; rfl
@[simp] theorem State.countDraw_busTrace : (s.countDraw).busTrace = s.busTrace := by cases s; rfl
@[simp] theorem State.countDraw_outTrace : (s.countDraw).outTrace = s.outTrace := by cases s; rfl
@[simp] theorem State.countDraw_periphTrace : (s.countDraw).periphTrace = s.periphTrace := by cases s; rfl
@[simp] theorem State.countDraw_dispatchTrace : (s.countDraw).dispatchTrace = s.dispatchTrace := by cases s; rfl
@[simp] theorem State.countDraw_ticksConsumed : (s.countDraw).ticksConsumed = s.ticksConsumed := by cases s; rfl

/-! ### State.logBus -/

@[simp] theorem State.logBus_cfg (e : BusEvent) : (s.logBus e).cfg = s.cfg := by cases s; rfl
@[simp] theorem State.logBus_fce (e : BusEvent) : (s.logBus e).fce = s.fce := by cases s; rfl
@[simp] theorem State.logBus_seq (e : BusEvent) : (s.logBus e).seq = s.seq := by cases s; rfl
@[simp] theorem State.logBus_cycleFlag (e : BusEvent) : (s.logBus e).cycleFlag = s.cycleFlag := by cases s; rfl
@[simp] theorem State.logBus_out (e : BusEvent) : (s.logBus e).out = s.out := by cases s; rfl
@[simp] theorem State.logBus_winEn (e : BusEvent) : (s.logBus e).winEn = s.winEn := by cases s; rfl
@[simp] theorem State.logBus_extEn (e : BusEvent) : (s.logBus e).extEn = s.extEn := by cases s; rfl
@[simp] theorem State.logBus_dev (e : BusEvent) : (s.logBus e).dev = s.dev := by cases s; rfl
@[simp] theorem State.logBus_periph (e : BusEvent) : (s.logBus e).periph = s.periph := by cases s; rfl
@[simp] theorem State.logBus_agenda (e : BusEvent) : (s.logBus e).agenda = s.agenda := by cases s; rfl
@[simp] theorem State.logBus_bench (e : BusEvent) : (s.logBus e).bench = s.bench := by cases s; rfl
@[simp] theorem State.logBus_draws (e : BusEvent) : (s.logBus e).draws = s.draws := by cases s; rfl
@[simp] theorem State.logBus_busTrace (e : BusEvent) : (s.logBus e).busTrace = s.busTrace ++ [e] := by cases s; rfl
@[simp] theorem State.logBus_outTrace (e : BusEvent) : (s.logBus e).outTrace = s.outTrace := by cases s; rfl
@[simp] theorem State.logBus_periphTrace (e : BusEvent) : (s.logBus e).periphTrace = s.periphTrace := by cases s; rfl
@[simp] theorem State.logBus_dispatchTrace (e : BusEvent) : (s.logBus e).dispatchTrace = s.dispatchTrace := by cases s; rfl
@[simp] theorem State.logBus_ticksConsumed (e : BusEvent) : (s.logBus e).ticksConsumed = s.ticksConsumed := by cases s; rfl

/-! ### State.logPeriph -/

@[simp] theorem State.logPeriph_cfg (e : PeriphEvent) : (s.logPeriph e).cfg = s.cfg := by cases s; rfl
@[simp] theorem State.logPeriph_fce (e : PeriphEvent) : (s.logPeriph e).fce = s.fce := by cases s; rfl
@[simp] theorem State.logPeriph_seq (e : PeriphEvent) : (s.logPeriph e).seq = s.seq := by cases s; rfl
@[simp] theorem State.logPeriph_cycleFlag (e : PeriphEvent) : (s.logPeriph e).cycleFlag = s.cycleFlag := by cases s; rfl
@[simp] theorem State.logPeriph_out (e : PeriphEvent) : (s.logPeriph e).out = s.out := by cases s; rfl
@[simp] theorem State.logPeriph_winEn (e : PeriphEvent) : (s.logPeriph e).winEn = s.winEn := by cases s; rfl
@[simp] theorem State.logPeriph_extEn (e : PeriphEvent) : (s.logPeriph e).extEn = s.extEn := by cases s; rfl
@[simp] theorem State.logPeriph_dev (e : PeriphEvent) : (s.logPeriph e).dev = s.dev := by cases s; rfl
@[simp] theorem State.logPeriph_periph (e : PeriphEvent) : (s.logPeriph e).periph = s.periph := by cases s; rfl
@[simp] theorem State.logPeriph_agenda (e : PeriphEvent) : (s.logPeriph e).agenda = s.agenda := by cases s; rfl
@[simp] theorem State.logPeriph_bench (e : PeriphEvent) : (s.logPeriph e).bench = s.bench := by cases s; rfl
@[simp] theorem State.logPeriph_draws (e : PeriphEvent) : (s.logPeriph e).draws = s.draws := by cases s; rfl
@[simp] theorem State.logPeriph_busTrace (e : PeriphEvent) : (s.logPeriph e).busTrace = s.busTrace := by cases s; rfl
@[simp] theorem State.logPeriph_outTrace (e : PeriphEvent) : (s.logPeriph e).outTrace = s.outTrace := by cases s; rfl
@[simp] theorem State.logPeriph_periphTrace (e : PeriphEvent) : (s.logPeriph e).periphTrace = s.periphTrace ++ [e] := by cases s; rfl
@[simp] theorem State.logPeriph_dispatchTrace (e : PeriphEvent) : (s.logPeriph e).dispatchTrace = s.dispatchTrace := by cases s; rfl
@[simp] theorem State.logPeriph_ticksConsumed (e : PeriphEvent) : (s.logPeriph e).ticksConsumed = s.ticksConsumed := by cases s; rfl

/-! ### State.withTurn -/

@[simp] theorem State.withTurn_cfg (a : Agent) : (s.withTurn a).cfg = s.cfg := by cases s; rfl
@[simp] theorem State.withTurn_fce (a : Agent) : (s.withTurn a).fce = s.fce := by cases s; rfl
@[simp] theorem State.withTurn_seq (a : Agent) : (s.withTurn a).seq = s.seq := by cases s; rfl
@[simp] theorem State.withTurn_cycleFlag (a : Agent) : (s.withTurn a).cycleFlag = s.cycleFlag := by cases s; rfl
@[simp] theorem State.withTurn_out (a : Agent) : (s.withTurn a).out = s.out := by cases s; rfl
@[simp] theorem State.withTurn_winEn (a : Agent) : (s.withTurn a).winEn = s.winEn := by cases s; rfl
@[simp] theorem State.withTurn_extEn (a : Agent) : (s.withTurn a).extEn = s.extEn := by cases s; rfl
@[simp] theorem State.withTurn_dev (a : Agent) : (s.withTurn a).dev = s.dev := by cases s; rfl
@[simp] theorem State.withTurn_periph (a : Agent) : (s.withTurn a).periph = s.periph := by cases s; rfl
@[simp] theorem State.withTurn_agenda (a : Agent) : (s.withTurn a).agenda = a :: s.agenda := by cases s; rfl
@[simp] theorem State.withTurn_bench (a : Agent) : (s.withTurn a).bench = s.bench := by cases s; rfl
@[simp] theorem State.withTurn_draws (a : Agent) : (s.withTurn a).draws = s.draws := by cases s; rfl
@[simp] theorem State.withTurn_busTrace (a : Agent) : (s.withTurn a).busTrace = s.busTrace := by cases s; rfl
@[simp] theorem State.withTurn_outTrace (a : Agent) : (s.withTurn a).outTrace = s.outTrace := by cases s; rfl
@[simp] theorem State.withTurn_periphTrace (a : Agent) : (s.withTurn a).periphTrace = s.periphTrace := by cases s; rfl
@[simp] theorem State.withTurn_dispatchTrace (a : Agent) : (s.withTurn a).dispatchTrace = s.dispatchTrace := by cases s; rfl
@[simp] theorem State.withTurn_ticksConsumed (a : Agent) : (s.withTurn a).ticksConsumed = s.ticksConsumed := by cases s; rfl

/-! ### tickStep -/

@[simp] theorem tickStep_cfg : (tickStep s).cfg = s.cfg := by cases s; rfl
@[simp] theorem tickStep_fce : (tickStep s).fce = s.fce := by cases s; rfl
@[simp] theorem tickStep_seq : (tickStep s).seq = s.seq := by cases s; rfl
@[simp] theorem tickStep_cycleFlag : (tickStep s).cycleFlag = true := by cases s; rfl
@[simp] theorem tickStep_out : (tickStep s).out = s.out := by cases s; rfl
@[simp] theorem tickStep_winEn : (tickStep s).winEn = s.winEn := by cases s; rfl
@[simp] theorem tickStep_extEn : (tickStep s).extEn = s.extEn := by cases s; rfl
@[simp] theorem tickStep_dev : (tickStep s).dev = s.dev := by cases s; rfl
@[simp] theorem tickStep_periph : (tickStep s).periph = s.periph := by cases s; rfl
@[simp] theorem tickStep_agenda : (tickStep s).agenda = s.agenda := by cases s; rfl
@[simp] theorem tickStep_bench : (tickStep s).bench = s.bench := by cases s; rfl
@[simp] theorem tickStep_draws : (tickStep s).draws = s.draws := by cases s; rfl
@[simp] theorem tickStep_busTrace : (tickStep s).busTrace = s.busTrace := by cases s; rfl
@[simp] theorem tickStep_outTrace : (tickStep s).outTrace = s.outTrace := by cases s; rfl
@[simp] theorem tickStep_periphTrace : (tickStep s).periphTrace = s.periphTrace := by cases s; rfl
@[simp] theorem tickStep_dispatchTrace : (tickStep s).dispatchTrace = s.dispatchTrace := by cases s; rfl
@[simp] theorem tickStep_ticksConsumed : (tickStep s).ticksConsumed = s.ticksConsumed := by cases s; rfl

/-! ### consumeTick -/

@[simp] theorem consumeTick_cfg : (consumeTick s).cfg = s.cfg := by cases s; rfl
@[simp] theorem consumeTick_fce : (consumeTick s).fce = s.fce := by cases s; rfl
@[simp] theorem consumeTick_seq : (consumeTick s).seq = s.seq := by cases s; rfl
@[simp] theorem consumeTick_cycleFlag : (consumeTick s).cycleFlag = false := by cases s; rfl
@[simp] theorem consumeTick_out : (consumeTick s).out = s.out := by cases s; rfl
@[simp] theorem consumeTick_winEn : (consumeTick s).winEn = s.winEn := by cases s; rfl
@[simp] theorem consumeTick_extEn : (consumeTick s).extEn = s.extEn := by cases s; rfl
@[simp] theorem consumeTick_dev : (consumeTick s).dev = s.dev := by cases s; rfl
@[simp] theorem consumeTick_periph : (consumeTick s).periph = s.periph := by cases s; rfl
@[simp] theorem consumeTick_agenda : (consumeTick s).agenda = s.agenda := by cases s; rfl
@[simp] theorem consumeTick_bench : (consumeTick s).bench = s.bench := by cases s; rfl
@[simp] theorem consumeTick_draws : (consumeTick s).draws = s.draws := by cases s; rfl
@[simp] theorem consumeTick_busTrace : (consumeTick s).busTrace = s.busTrace := by cases s; rfl
@[simp] theorem consumeTick_outTrace : (consumeTick s).outTrace = s.outTrace := by cases s; rfl
@[simp] theorem consumeTick_periphTrace : (consumeTick s).periphTrace = s.periphTrace := by cases s; rfl
@[simp] theorem consumeTick_dispatchTrace : (consumeTick s).dispatchTrace = s.dispatchTrace := by cases s; rfl
@[simp] theorem consumeTick_ticksConsumed : (consumeTick s).ticksConsumed = s.ticksConsumed + 1 := by cases s; rfl

/-! ### outDo -/

@[simp] theorem outDo_cfg (call : OutCall) : (outDo call s).cfg = s.cfg := by cases s; rfl
@[simp] theorem outDo_fce (call : OutCall) : (outDo call s).fce = s.fce := by cases s; rfl
@[simp] theorem outDo_seq (call : OutCall) : (outDo call s).seq = s.seq := by cases s; rfl
@[simp] theorem outDo_cycleFlag (call : OutCall) : (outDo call s).cycleFlag = s.cycleFlag := by cases s; rfl
@[simp] theorem outDo_out (call : OutCall) : (outDo call s).out = call.apply s.out := by cases s; rfl
@[simp] theorem outDo_winEn (call : OutCall) : (outDo call s).winEn = s.winEn := by cases s; rfl
@[simp] theorem outDo_extEn (call : OutCall) : (outDo call s).extEn = s.extEn := by cases s; rfl
@[simp] theorem outDo_dev (call : OutCall) : (outDo call s).dev = s.dev := by cases s; rfl
@[simp] theorem outDo_periph (call : OutCall) : (outDo call s).periph = s.periph := by cases s; rfl
@[simp] theorem outDo_agenda (call : OutCall) : (outDo call s).agenda = s.agenda := by cases s; rfl
@[simp] theorem outDo_bench (call : OutCall) : (outDo call s).bench = s.bench := by cases s; rfl
@[simp] theorem outDo_draws (call : OutCall) : (outDo call s).draws = s.draws := by cases s; rfl
@[simp] theorem outDo_busTrace (call : OutCall) : (outDo call s).busTrace = s.busTrace := by cases s; rfl
@[simp] theorem outDo_outTrace (call : OutCall) : (outDo call s).outTrace = s.outTrace ++ [⟨call, call.apply s.out⟩] := by cases s; rfl
@[simp] theorem outDo_periphTrace (call : OutCall) : (outDo call s).periphTrace = s.periphTrace := by cases s; rfl
@[simp] theorem outDo_dispatchTrace (call : OutCall) : (outDo call s).dispatchTrace = s.dispatchTrace := by cases s; rfl
@[simp] theorem outDo_ticksConsumed (call : OutCall) : (outDo call s).ticksConsumed = s.ticksConsumed := by cases s; rfl

/-! ### outSet -/

@[simp] theorem outSet_cfg (b : Byte) : (outSet b s).cfg = s.cfg := by cases s; rfl
@[simp] theorem outSet_fce (b : Byte) : (outSet b s).fce = s.fce := by cases s; rfl
@[simp] theorem outSet_seq (b : Byte) : (outSet b s).seq = s.seq := by cases s; rfl
@[simp] theorem outSet_cycleFlag (b : Byte) : (outSet b s).cycleFlag = s.cycleFlag := by cases s; rfl
@[simp] theorem outSet_out (b : Byte) : (outSet b s).out = b := by cases s; rfl
@[simp] theorem outSet_winEn (b : Byte) : (outSet b s).winEn = s.winEn := by cases s; rfl
@[simp] theorem outSet_extEn (b : Byte) : (outSet b s).extEn = s.extEn := by cases s; rfl
@[simp] theorem outSet_dev (b : Byte) : (outSet b s).dev = s.dev := by cases s; rfl
@[simp] theorem outSet_periph (b : Byte) : (outSet b s).periph = s.periph := by cases s; rfl
@[simp] theorem outSet_agenda (b : Byte) : (outSet b s).agenda = s.agenda := by cases s; rfl
@[simp] theorem outSet_bench (b : Byte) : (outSet b s).bench = s.bench := by cases s; rfl
@[simp] theorem outSet_draws (b : Byte) : (outSet b s).draws = s.draws := by cases s; rfl
@[simp] theorem outSet_busTrace (b : Byte) : (outSet b s).busTrace = s.busTrace := by cases s; rfl
@[simp] theorem outSet_outTrace (b : Byte) : (outSet b s).outTrace = s.outTrace ++ [⟨.set b, b⟩] := by cases s; rfl
@[simp] theorem outSet_periphTrace (b : Byte) : (outSet b s).periphTrace = s.periphTrace := by cases s; rfl
@[simp] theorem outSet_dispatchTrace (b : Byte) : (outSet b s).dispatchTrace = s.dispatchTrace := by cases s; rfl
@[simp] theorem outSet_ticksConsumed (b : Byte) : (outSet b s).ticksConsumed = s.ticksConsumed := by cases s; rfl

/-! ### extBusDrive -/

@[simp] theorem extBusDrive_cfg (x : LineState) : (extBusDrive x s).cfg = s.cfg := by cases s; rfl
@[simp] theorem extBusDrive_fce (x : LineState) : (extBusDrive x s).fce = s.fce := by cases s; rfl
@[simp] theorem extBusDrive_seq (x : LineState) : (extBusDrive x s).seq = s.seq := by cases s; rfl
@[simp] theorem extBusDrive_cycleFlag (x : LineState) : (extBusDrive x s).cycleFlag = s.cycleFlag := by cases s; rfl
@[simp] theorem extBusDrive_out (x : LineState) : (extBusDrive x s).out = s.out := by cases s; rfl
@[simp] theorem extBusDrive_winEn (x : LineState) : (extBusDrive x s).winEn = s.winEn := by cases s; rfl
@[simp] theorem extBusDrive_extEn (x : LineState) : (extBusDrive x s).extEn = s.extEn := by cases s; rfl
@[simp] theorem extBusDrive_dev (x : LineState) : (extBusDrive x s).dev = s.dev := by cases s; rfl
@[simp] theorem extBusDrive_periph (x : LineState) : (extBusDrive x s).periph = s.periph := by cases s; rfl
@[simp] theorem extBusDrive_agenda (x : LineState) : (extBusDrive x s).agenda = s.agenda := by cases s; rfl
@[simp] theorem extBusDrive_bench (x : LineState) : (extBusDrive x s).bench = s.bench := by cases s; rfl
@[simp] theorem extBusDrive_draws (x : LineState) : (extBusDrive x s).draws = s.draws := by cases s; rfl
@[simp] theorem extBusDrive_busTrace (x : LineState) : (extBusDrive x s).busTrace = s.busTrace := by cases s; rfl
@[simp] theorem extBusDrive_outTrace (x : LineState) : (extBusDrive x s).outTrace = s.outTrace := by cases s; rfl
@[simp] theorem extBusDrive_periphTrace (x : LineState) : (extBusDrive x s).periphTrace = s.periphTrace ++ [.extBus x] := by cases s; rfl
@[simp] theorem extBusDrive_dispatchTrace (x : LineState) : (extBusDrive x s).dispatchTrace = s.dispatchTrace := by cases s; rfl
@[simp] theorem extBusDrive_ticksConsumed (x : LineState) : (extBusDrive x s).ticksConsumed = s.ticksConsumed := by cases s; rfl

/-! ### extAccess -/

@[simp] theorem extAccess_cfg (e : Bool) : (extAccess e s).cfg = s.cfg := by cases s; rfl
@[simp] theorem extAccess_fce (e : Bool) : (extAccess e s).fce = s.fce := by cases s; rfl
@[simp] theorem extAccess_seq (e : Bool) : (extAccess e s).seq = s.seq := by cases s; rfl
@[simp] theorem extAccess_cycleFlag (e : Bool) : (extAccess e s).cycleFlag = s.cycleFlag := by cases s; rfl
@[simp] theorem extAccess_out (e : Bool) : (extAccess e s).out = s.out := by cases s; rfl
@[simp] theorem extAccess_winEn (e : Bool) : (extAccess e s).winEn = s.winEn := by cases s; rfl
@[simp] theorem extAccess_extEn (e : Bool) : (extAccess e s).extEn = e := by cases s; rfl
@[simp] theorem extAccess_dev (e : Bool) : (extAccess e s).dev = s.dev := by cases s; rfl
@[simp] theorem extAccess_periph (e : Bool) : (extAccess e s).periph = s.periph := by cases s; rfl
@[simp] theorem extAccess_agenda (e : Bool) : (extAccess e s).agenda = s.agenda := by cases s; rfl
@[simp] theorem extAccess_bench (e : Bool) : (extAccess e s).bench = s.bench := by cases s; rfl
@[simp] theorem extAccess_draws (e : Bool) : (extAccess e s).draws = s.draws := by cases s; rfl
@[simp] theorem extAccess_busTrace (e : Bool) : (extAccess e s).busTrace = s.busTrace := by cases s; rfl
@[simp] theorem extAccess_outTrace (e : Bool) : (extAccess e s).outTrace = s.outTrace := by cases s; rfl
@[simp] theorem extAccess_periphTrace (e : Bool) : (extAccess e s).periphTrace = s.periphTrace ++ [.extAccess e] := by cases s; rfl
@[simp] theorem extAccess_dispatchTrace (e : Bool) : (extAccess e s).dispatchTrace = s.dispatchTrace := by cases s; rfl
@[simp] theorem extAccess_ticksConsumed (e : Bool) : (extAccess e s).ticksConsumed = s.ticksConsumed := by cases s; rfl

/-! ### flashWindow -/

@[simp] theorem flashWindow_cfg (e : Bool) : (flashWindow e s).cfg = s.cfg := by cases s; rfl
@[simp] theorem flashWindow_fce (e : Bool) : (flashWindow e s).fce = s.fce := by cases s; rfl
@[simp] theorem flashWindow_seq (e : Bool) : (flashWindow e s).seq = s.seq := by cases s; rfl
@[simp] theorem flashWindow_cycleFlag (e : Bool) : (flashWindow e s).cycleFlag = s.cycleFlag := by cases s; rfl
@[simp] theorem flashWindow_out (e : Bool) : (flashWindow e s).out = s.out := by cases s; rfl
@[simp] theorem flashWindow_winEn (e : Bool) : (flashWindow e s).winEn = e := by cases s; rfl
@[simp] theorem flashWindow_extEn (e : Bool) : (flashWindow e s).extEn = s.extEn := by cases s; rfl
@[simp] theorem flashWindow_dev (e : Bool) : (flashWindow e s).dev = s.dev := by cases s; rfl
@[simp] theorem flashWindow_periph (e : Bool) : (flashWindow e s).periph = s.periph := by cases s; rfl
@[simp] theorem flashWindow_agenda (e : Bool) : (flashWindow e s).agenda = s.agenda := by cases s; rfl
@[simp] theorem flashWindow_bench (e : Bool) : (flashWindow e s).bench = s.bench := by cases s; rfl
@[simp] theorem flashWindow_draws (e : Bool) : (flashWindow e s).draws = s.draws := by cases s; rfl
@[simp] theorem flashWindow_busTrace (e : Bool) : (flashWindow e s).busTrace = s.busTrace := by cases s; rfl
@[simp] theorem flashWindow_outTrace (e : Bool) : (flashWindow e s).outTrace = s.outTrace := by cases s; rfl
@[simp] theorem flashWindow_periphTrace (e : Bool) : (flashWindow e s).periphTrace = s.periphTrace ++ [.flashWindow e] := by cases s; rfl
@[simp] theorem flashWindow_dispatchTrace (e : Bool) : (flashWindow e s).dispatchTrace = s.dispatchTrace := by cases s; rfl
@[simp] theorem flashWindow_ticksConsumed (e : Bool) : (flashWindow e s).ticksConsumed = s.ticksConsumed := by cases s; rfl

/-! ### wdtTouch -/

@[simp] theorem wdtTouch_cfg : (wdtTouch s).cfg = s.cfg := by cases s; rfl
@[simp] theorem wdtTouch_fce : (wdtTouch s).fce = s.fce := by cases s; rfl
@[simp] theorem wdtTouch_seq : (wdtTouch s).seq = s.seq := by cases s; rfl
@[simp] theorem wdtTouch_cycleFlag : (wdtTouch s).cycleFlag = s.cycleFlag := by cases s; rfl
@[simp] theorem wdtTouch_out : (wdtTouch s).out = s.out := by cases s; rfl
@[simp] theorem wdtTouch_winEn : (wdtTouch s).winEn = s.winEn := by cases s; rfl
@[simp] theorem wdtTouch_extEn : (wdtTouch s).extEn = s.extEn := by cases s; rfl
@[simp] theorem wdtTouch_dev : (wdtTouch s).dev = s.dev := by cases s; rfl
@[simp] theorem wdtTouch_periph : (wdtTouch s).periph = s.periph := by cases s; rfl
@[simp] theorem wdtTouch_agenda : (wdtTouch s).agenda = s.agenda := by cases s; rfl
@[simp] theorem wdtTouch_bench : (wdtTouch s).bench = s.bench := by cases s; rfl
@[simp] theorem wdtTouch_draws : (wdtTouch s).draws = s.draws := by cases s; rfl
@[simp] theorem wdtTouch_busTrace : (wdtTouch s).busTrace = s.busTrace := by cases s; rfl
@[simp] theorem wdtTouch_outTrace : (wdtTouch s).outTrace = s.outTrace := by cases s; rfl
@[simp] theorem wdtTouch_periphTrace : (wdtTouch s).periphTrace = s.periphTrace ++ [.wdtTouch] := by cases s; rfl
@[simp] theorem wdtTouch_dispatchTrace : (wdtTouch s).dispatchTrace = s.dispatchTrace := by cases s; rfl
@[simp] theorem wdtTouch_ticksConsumed : (wdtTouch s).ticksConsumed = s.ticksConsumed := by cases s; rfl

/-! ### periphWrite -/

@[simp] theorem periphWrite_cfg (h : Handle) (d : Byte) : (periphWrite h d s).cfg = s.cfg := by cases s; rfl
@[simp] theorem periphWrite_fce (h : Handle) (d : Byte) : (periphWrite h d s).fce = s.fce := by cases s; rfl
@[simp] theorem periphWrite_seq (h : Handle) (d : Byte) : (periphWrite h d s).seq = s.seq := by cases s; rfl
@[simp] theorem periphWrite_cycleFlag (h : Handle) (d : Byte) : (periphWrite h d s).cycleFlag = s.cycleFlag := by cases s; rfl
@[simp] theorem periphWrite_out (h : Handle) (d : Byte) : (periphWrite h d s).out = s.out := by cases s; rfl
@[simp] theorem periphWrite_winEn (h : Handle) (d : Byte) : (periphWrite h d s).winEn = s.winEn := by cases s; rfl
@[simp] theorem periphWrite_extEn (h : Handle) (d : Byte) : (periphWrite h d s).extEn = s.extEn := by cases s; rfl
@[simp] theorem periphWrite_dev (h : Handle) (d : Byte) : (periphWrite h d s).dev = s.dev := by cases s; rfl
@[simp] theorem periphWrite_periph (h : Handle) (d : Byte) : (periphWrite h d s).periph = s.periph.store h d := by cases s; rfl
@[simp] theorem periphWrite_agenda (h : Handle) (d : Byte) : (periphWrite h d s).agenda = s.agenda := by cases s; rfl
@[simp] theorem periphWrite_bench (h : Handle) (d : Byte) : (periphWrite h d s).bench = s.bench := by cases s; rfl
@[simp] theorem periphWrite_draws (h : Handle) (d : Byte) : (periphWrite h d s).draws = s.draws := by cases s; rfl
@[simp] theorem periphWrite_busTrace (h : Handle) (d : Byte) : (periphWrite h d s).busTrace = s.busTrace := by cases s; rfl
@[simp] theorem periphWrite_outTrace (h : Handle) (d : Byte) : (periphWrite h d s).outTrace = s.outTrace := by cases s; rfl
@[simp] theorem periphWrite_periphTrace (h : Handle) (d : Byte) : (periphWrite h d s).periphTrace = s.periphTrace ++ [.write h d] := by cases s; rfl
@[simp] theorem periphWrite_dispatchTrace (h : Handle) (d : Byte) : (periphWrite h d s).dispatchTrace = s.dispatchTrace := by cases s; rfl
@[simp] theorem periphWrite_ticksConsumed (h : Handle) (d : Byte) : (periphWrite h d s).ticksConsumed = s.ticksConsumed := by cases s; rfl

/-! ### ramWrite -/

@[simp] theorem ramWrite_cfg (k : Nat) (d : Byte) : (ramWrite k d s).cfg = s.cfg := by cases s; rfl
@[simp] theorem ramWrite_fce (k : Nat) (d : Byte) : (ramWrite k d s).fce = s.fce := by cases s; rfl
@[simp] theorem ramWrite_seq (k : Nat) (d : Byte) : (ramWrite k d s).seq = s.seq := by cases s; rfl
@[simp] theorem ramWrite_cycleFlag (k : Nat) (d : Byte) : (ramWrite k d s).cycleFlag = s.cycleFlag := by cases s; rfl
@[simp] theorem ramWrite_out (k : Nat) (d : Byte) : (ramWrite k d s).out = s.out := by cases s; rfl
@[simp] theorem ramWrite_winEn (k : Nat) (d : Byte) : (ramWrite k d s).winEn = s.winEn := by cases s; rfl
@[simp] theorem ramWrite_extEn (k : Nat) (d : Byte) : (ramWrite k d s).extEn = s.extEn := by cases s; rfl
@[simp] theorem ramWrite_dev (k : Nat) (d : Byte) : (ramWrite k d s).dev = s.dev := by cases s; rfl
@[simp] theorem ramWrite_periph (k : Nat) (d : Byte) : (ramWrite k d s).periph = s.periph.store (ramAddress s.cfg.toParams k) d := by cases s; rfl
@[simp] theorem ramWrite_agenda (k : Nat) (d : Byte) : (ramWrite k d s).agenda = s.agenda := by cases s; rfl
@[simp] theorem ramWrite_bench (k : Nat) (d : Byte) : (ramWrite k d s).bench = s.bench := by cases s; rfl
@[simp] theorem ramWrite_draws (k : Nat) (d : Byte) : (ramWrite k d s).draws = s.draws := by cases s; rfl
@[simp] theorem ramWrite_busTrace (k : Nat) (d : Byte) : (ramWrite k d s).busTrace = s.busTrace := by cases s; rfl
@[simp] theorem ramWrite_outTrace (k : Nat) (d : Byte) : (ramWrite k d s).outTrace = s.outTrace := by cases s; rfl
@[simp] theorem ramWrite_periphTrace (k : Nat) (d : Byte) : (ramWrite k d s).periphTrace = s.periphTrace ++ [.ramWrite k d] := by cases s; rfl
@[simp] theorem ramWrite_dispatchTrace (k : Nat) (d : Byte) : (ramWrite k d s).dispatchTrace = s.dispatchTrace := by cases s; rfl
@[simp] theorem ramWrite_ticksConsumed (k : Nat) (d : Byte) : (ramWrite k d s).ticksConsumed = s.ticksConsumed := by cases s; rfl

/-! ### hwReset -/

@[simp] theorem hwReset_cfg : (hwReset s).cfg = s.cfg := by cases s; rfl
@[simp] theorem hwReset_fce : (hwReset s).fce = Fce.reset := by cases s; rfl
@[simp] theorem hwReset_seq : (hwReset s).seq = Seq.reset := by cases s; rfl
@[simp] theorem hwReset_cycleFlag : (hwReset s).cycleFlag = false := by cases s; rfl
@[simp] theorem hwReset_out : (hwReset s).out = 0x00 := by cases s; rfl
@[simp] theorem hwReset_winEn : (hwReset s).winEn = false := by cases s; rfl
@[simp] theorem hwReset_extEn : (hwReset s).extEn = false := by cases s; rfl
@[simp] theorem hwReset_dev : (hwReset s).dev = s.dev := by cases s; rfl
@[simp] theorem hwReset_periph : (hwReset s).periph = s.periph := by cases s; rfl
@[simp] theorem hwReset_agenda : (hwReset s).agenda = s.agenda := by cases s; rfl
@[simp] theorem hwReset_bench : (hwReset s).bench = s.bench := by cases s; rfl
@[simp] theorem hwReset_draws : (hwReset s).draws = s.draws := by cases s; rfl
@[simp] theorem hwReset_busTrace : (hwReset s).busTrace = s.busTrace := by cases s; rfl
@[simp] theorem hwReset_outTrace : (hwReset s).outTrace = s.outTrace := by cases s; rfl
@[simp] theorem hwReset_periphTrace : (hwReset s).periphTrace = s.periphTrace := by cases s; rfl
@[simp] theorem hwReset_dispatchTrace : (hwReset s).dispatchTrace = s.dispatchTrace := by cases s; rfl
@[simp] theorem hwReset_ticksConsumed : (hwReset s).ticksConsumed = s.ticksConsumed := by cases s; rfl

/-! ### busWrite -/

@[simp] theorem busWrite_cfg (a : Nat) (d : Byte) : (busWrite a d s).cfg = s.cfg := by
  unfold busWrite; split <;> rfl
@[simp] theorem busWrite_fce (a : Nat) (d : Byte) : (busWrite a d s).fce = s.fce := by
  unfold busWrite; split <;> rfl
@[simp] theorem busWrite_seq (a : Nat) (d : Byte) : (busWrite a d s).seq = s.seq := by
  unfold busWrite; split <;> rfl
@[simp] theorem busWrite_cycleFlag (a : Nat) (d : Byte) : (busWrite a d s).cycleFlag = s.cycleFlag := by
  unfold busWrite; split <;> rfl
@[simp] theorem busWrite_out (a : Nat) (d : Byte) : (busWrite a d s).out = s.out := by
  unfold busWrite; split <;> rfl
@[simp] theorem busWrite_winEn (a : Nat) (d : Byte) : (busWrite a d s).winEn = s.winEn := by
  unfold busWrite; split <;> rfl
@[simp] theorem busWrite_extEn (a : Nat) (d : Byte) : (busWrite a d s).extEn = s.extEn := by
  unfold busWrite; split <;> rfl
@[simp] theorem busWrite_dev (a : Nat) (d : Byte) : (busWrite a d s).dev = if s.winEn then s.dev.store s.cfg.toParams a d else s.dev := by
  unfold busWrite; split <;> rfl
@[simp] theorem busWrite_periph (a : Nat) (d : Byte) : (busWrite a d s).periph = s.periph := by
  unfold busWrite; split <;> rfl
@[simp] theorem busWrite_agenda (a : Nat) (d : Byte) : (busWrite a d s).agenda = s.agenda := by
  unfold busWrite; split <;> rfl
@[simp] theorem busWrite_bench (a : Nat) (d : Byte) : (busWrite a d s).bench = s.bench := by
  unfold busWrite; split <;> rfl
@[simp] theorem busWrite_draws (a : Nat) (d : Byte) : (busWrite a d s).draws = s.draws := by
  unfold busWrite; split <;> rfl
@[simp] theorem busWrite_busTrace (a : Nat) (d : Byte) : (busWrite a d s).busTrace = s.busTrace ++ [.w a d] := by
  unfold busWrite; split <;> rfl
@[simp] theorem busWrite_outTrace (a : Nat) (d : Byte) : (busWrite a d s).outTrace = s.outTrace := by
  unfold busWrite; split <;> rfl
@[simp] theorem busWrite_periphTrace (a : Nat) (d : Byte) : (busWrite a d s).periphTrace = s.periphTrace := by
  unfold busWrite; split <;> rfl
@[simp] theorem busWrite_dispatchTrace (a : Nat) (d : Byte) : (busWrite a d s).dispatchTrace = s.dispatchTrace := by
  unfold busWrite; split <;> rfl
@[simp] theorem busWrite_ticksConsumed (a : Nat) (d : Byte) : (busWrite a d s).ticksConsumed = s.ticksConsumed := by
  unfold busWrite; split <;> rfl

/-! ### devAfterLoad -/

@[simp] theorem devAfterLoad_cfg (a : Nat) : (devAfterLoad a s).cfg = s.cfg := by
  unfold devAfterLoad; split <;> [split; skip] <;> rfl
@[simp] theorem devAfterLoad_fce (a : Nat) : (devAfterLoad a s).fce = s.fce := by
  unfold devAfterLoad; split <;> [split; skip] <;> rfl
@[simp] theorem devAfterLoad_seq (a : Nat) : (devAfterLoad a s).seq = s.seq := by
  unfold devAfterLoad; split <;> [split; skip] <;> rfl
@[simp] theorem devAfterLoad_cycleFlag (a : Nat) : (devAfterLoad a s).cycleFlag = s.cycleFlag := by
  unfold devAfterLoad; split <;> [split; skip] <;> rfl
@[simp] theorem devAfterLoad_out (a : Nat) : (devAfterLoad a s).out = s.out := by
  unfold devAfterLoad; split <;> [split; skip] <;> rfl
@[simp] theorem devAfterLoad_winEn (a : Nat) : (devAfterLoad a s).winEn = s.winEn := by
  unfold devAfterLoad; split <;> [split; skip] <;> rfl
@[simp] theorem devAfterLoad_extEn (a : Nat) : (devAfterLoad a s).extEn = s.extEn := by
  unfold devAfterLoad; split <;> [split; skip] <;> rfl
@[simp] theorem devAfterLoad_periph (a : Nat) : (devAfterLoad a s).periph = s.periph := by
  unfold devAfterLoad; split <;> [split; skip] <;> rfl
@[simp] theorem devAfterLoad_agenda (a : Nat) : (devAfterLoad a s).agenda = s.agenda := by
  unfold devAfterLoad; split <;> [split; skip] <;> rfl
@[simp] theorem devAfterLoad_bench (a : Nat) : (devAfterLoad a s).bench = s.bench := by
  unfold devAfterLoad; split <;> [split; skip] <;> rfl
@[simp] theorem devAfterLoad_busTrace (a : Nat) : (devAfterLoad a s).busTrace = s.busTrace := by
  unfold devAfterLoad; split <;> [split; skip] <;> rfl
@[simp] theorem devAfterLoad_outTrace (a : Nat) : (devAfterLoad a s).outTrace = s.outTrace := by
  unfold devAfterLoad; split <;> [split; skip] <;> rfl
@[simp] theorem devAfterLoad_periphTrace (a : Nat) : (devAfterLoad a s).periphTrace = s.periphTrace := by
  unfold devAfterLoad; split <;> [split; skip] <;> rfl
@[simp] theorem devAfterLoad_dispatchTrace (a : Nat) : (devAfterLoad a s).dispatchTrace = s.dispatchTrace := by
  unfold devAfterLoad; split <;> [split; skip] <;> rfl
@[simp] theorem devAfterLoad_ticksConsumed (a : Nat) : (devAfterLoad a s).ticksConsumed = s.ticksConsumed := by
  unfold devAfterLoad; split <;> [split; skip] <;> rfl

/-! ### busRead -/

@[simp] theorem busRead_cfg (a : Nat) : (busRead a s).cfg = s.cfg := by
  simp [busRead]
@[simp] theorem busRead_fce (a : Nat) : (busRead a s).fce = s.fce := by
  simp [busRead]
@[simp] theorem busRead_seq (a : Nat) : (busRead a s).seq = s.seq := by
  simp [busRead]
@[simp] theorem busRead_cycleFlag (a : Nat) : (busRead a s).cycleFlag = s.cycleFlag := by
  simp [busRead]
@[simp] theorem busRead_out (a : Nat) : (busRead a s).out = s.out := by
  simp [busRead]
@[simp] theorem busRead_winEn (a : Nat) : (busRead a s).winEn = s.winEn := by
  simp [busRead]
@[simp] theorem busRead_extEn (a : Nat) : (busRead a s).extEn = s.extEn := by
  simp [busRead]
@[simp] theorem busRead_dev (a : Nat) : (busRead a s).dev = (devAfterLoad a s).dev := by
  simp [busRead]
@[simp] theorem busRead_periph (a : Nat) : (busRead a s).periph = s.periph := by
  simp [busRead]
@[simp] theorem busRead_agenda (a : Nat) : (busRead a s).agenda = s.agenda := by
  simp [busRead]
@[simp] theorem busRead_bench (a : Nat) : (busRead a s).bench = s.bench := by
  simp [busRead]
@[simp] theorem busRead_draws (a : Nat) : (busRead a s).draws = (devAfterLoad a s).draws := by
  simp [busRead]
@[simp] theorem busRead_busTrace (a : Nat) : (busRead a s).busTrace = s.busTrace ++ [.r a (devAnswer a s)] := by
  simp [busRead]
@[simp] theorem busRead_outTrace (a : Nat) : (busRead a s).outTrace = s.outTrace := by
  simp [busRead]
@[simp] theorem busRead_periphTrace (a : Nat) : (busRead a s).periphTrace = s.periphTrace := by
  simp [busRead]
@[simp] theorem busRead_dispatchTrace (a : Nat) : (busRead a s).dispatchTrace = s.dispatchTrace := by
  simp [busRead]
@[simp] theorem busRead_ticksConsumed (a : Nat) : (busRead a s).ticksConsumed = s.ticksConsumed := by
  simp [busRead]

/-! ### periphAfterLoad -/

@[simp] theorem periphAfterLoad_cfg : (periphAfterLoad s).cfg = s.cfg := by
  unfold periphAfterLoad; split <;> rfl
@[simp] theorem periphAfterLoad_fce : (periphAfterLoad s).fce = s.fce := by
  unfold periphAfterLoad; split <;> rfl
@[simp] theorem periphAfterLoad_seq : (periphAfterLoad s).seq = s.seq := by
  unfold periphAfterLoad; split <;> rfl
@[simp] theorem periphAfterLoad_cycleFlag : (periphAfterLoad s).cycleFlag = s.cycleFlag := by
  unfold periphAfterLoad; split <;> rfl
@[simp] theorem periphAfterLoad_out : (periphAfterLoad s).out = s.out := by
  unfold periphAfterLoad; split <;> rfl
@[simp] theorem periphAfterLoad_winEn : (periphAfterLoad s).winEn = s.winEn := by
  unfold periphAfterLoad; split <;> rfl
@[simp] theorem periphAfterLoad_extEn : (periphAfterLoad s).extEn = s.extEn := by
  unfold periphAfterLoad; split <;> rfl
@[simp] theorem periphAfterLoad_dev : (periphAfterLoad s).dev = s.dev := by
  unfold periphAfterLoad; split <;> rfl
@[simp] theorem periphAfterLoad_agenda : (periphAfterLoad s).agenda = s.agenda := by
  unfold periphAfterLoad; split <;> rfl
@[simp] theorem periphAfterLoad_bench : (periphAfterLoad s).bench = s.bench := by
  unfold periphAfterLoad; split <;> rfl
@[simp] theorem periphAfterLoad_busTrace : (periphAfterLoad s).busTrace = s.busTrace := by
  unfold periphAfterLoad; split <;> rfl
@[simp] theorem periphAfterLoad_outTrace : (periphAfterLoad s).outTrace = s.outTrace := by
  unfold periphAfterLoad; split <;> rfl
@[simp] theorem periphAfterLoad_periphTrace : (periphAfterLoad s).periphTrace = s.periphTrace := by
  unfold periphAfterLoad; split <;> rfl
@[simp] theorem periphAfterLoad_dispatchTrace : (periphAfterLoad s).dispatchTrace = s.dispatchTrace := by
  unfold periphAfterLoad; split <;> rfl
@[simp] theorem periphAfterLoad_ticksConsumed : (periphAfterLoad s).ticksConsumed = s.ticksConsumed := by
  unfold periphAfterLoad; split <;> rfl

/-! ### periphRead -/

@[simp] theorem periphRead_cfg (h : Handle) : (periphRead h s).cfg = s.cfg := by
  simp [periphRead]
@[simp] theorem periphRead_fce (h : Handle) : (periphRead h s).fce = s.fce := by
  simp [periphRead]
@[simp] theorem periphRead_seq (h : Handle) : (periphRead h s).seq = s.seq := by
  simp [periphRead]
@[simp] theorem periphRead_cycleFlag (h : Handle) : (periphRead h s).cycleFlag = s.cycleFlag := by
  simp [periphRead]
@[simp] theorem periphRead_out (h : Handle) : (periphRead h s).out = s.out := by
  simp [periphRead]
@[simp] theorem periphRead_winEn (h : Handle) : (periphRead h s).winEn = s.winEn := by
  simp [periphRead]
@[simp] theorem periphRead_extEn (h : Handle) : (periphRead h s).extEn = s.extEn := by
  simp [periphRead]
@[simp] theorem periphRead_dev (h : Handle) : (periphRead h s).dev = s.dev := by
  simp [periphRead]
@[simp] theorem periphRead_periph (h : Handle) : (periphRead h s).periph = (periphAfterLoad s).periph := by
  simp [periphRead]
@[simp] theorem periphRead_agenda (h : Handle) : (periphRead h s).agenda = s.agenda := by
  simp [periphRead]
@[simp] theorem periphRead_bench (h : Handle) : (periphRead h s).bench = s.bench := by
  simp [periphRead]
@[simp] theorem periphRead_draws (h : Handle) : (periphRead h s).draws = (periphAfterLoad s).draws := by
  simp [periphRead]
@[simp] theorem periphRead_busTrace (h : Handle) : (periphRead h s).busTrace = s.busTrace := by
  simp [periphRead]
@[simp] theorem periphRead_outTrace (h : Handle) : (periphRead h s).outTrace = s.outTrace := by
  simp [periphRead]
@[simp] theorem periphRead_periphTrace (h : Handle) : (periphRead h s).periphTrace = s.periphTrace ++ [.read h (periphAnswer h s)] := by
  simp [periphRead]
@[simp] theorem periphRead_dispatchTrace (h : Handle) : (periphRead h s).dispatchTrace = s.dispatchTrace := by
  simp [periphRead]
@[simp] theorem periphRead_ticksConsumed (h : Handle) : (periphRead h s).ticksConsumed = s.ticksConsumed := by
  simp [periphRead]

/-! ### ramRead -/

@[simp] theorem ramRead_cfg (k : Nat) : (ramRead k s).cfg = s.cfg := by
  simp [ramRead]
@[simp] theorem ramRead_fce (k : Nat) : (ramRead k s).fce = s.fce := by
  simp [ramRead]
@[simp] theorem ramRead_seq (k : Nat) : (ramRead k s).seq = s.seq := by
  simp [ramRead]
@[simp] theorem ramRead_cycleFlag (k : Nat) : (ramRead k s).cycleFlag = s.cycleFlag := by
  simp [ramRead]
@[simp] theorem ramRead_out (k : Nat) : (ramRead k s).out = s.out := by
  simp [ramRead]
@[simp] theorem ramRead_winEn (k : Nat) : (ramRead k s).winEn = s.winEn := by
  simp [ramRead]
@[simp] theorem ramRead_extEn (k : Nat) : (ramRead k s).extEn = s.extEn := by
  simp [ramRead]
@[simp] theorem ramRead_dev (k : Nat) : (ramRead k s).dev = s.dev := by
  simp [ramRead]
@[simp] theorem ramRead_periph (k : Nat) : (ramRead k s).periph = (periphAfterLoad s).periph := by
  simp [ramRead]
@[simp] theorem ramRead_agenda (k : Nat) : (ramRead k s).agenda = s.agenda := by
  simp [ramRead]
@[simp] theorem ramRead_bench (k : Nat) : (ramRead k s).bench = s.bench := by
  simp [ramRead]
@[simp] theorem ramRead_draws (k : Nat) : (ramRead k s).draws = (periphAfterLoad s).draws := by
  simp [ramRead]
@[simp] theorem ramRead_busTrace (k : Nat) : (ramRead k s).busTrace = s.busTrace := by
  simp [ramRead]
@[simp] theorem ramRead_outTrace (k : Nat) : (ramRead k s).outTrace = s.outTrace := by
  simp [ramRead]
@[simp] theorem ramRead_periphTrace (k : Nat) : (ramRead k s).periphTrace = s.periphTrace ++ [.ramRead k (ramAnswer k s)] := by
  simp [ramRead]
@[simp] theorem ramRead_dispatchTrace (k : Nat) : (ramRead k s).dispatchTrace = s.dispatchTrace := by
  simp [ramRead]
@[simp] theorem ramRead_ticksConsumed (k : Nat) : (ramRead k s).ticksConsumed = s.ticksConsumed := by
  simp [ramRead]

/-! ### afterTurn -/

@[simp] theorem afterTurn_cfg : (afterTurn s).cfg = s.cfg := by
  unfold afterTurn; split <;> rfl
@[simp] theorem afterTurn_fce : (afterTurn s).fce = s.fce := by
  unfold afterTurn; split <;> rfl
@[simp] theorem afterTurn_seq : (afterTurn s).seq = s.seq := by
  unfold afterTurn; split <;> rfl
@[simp] theorem afterTurn_cycleFlag : (afterTurn s).cycleFlag = s.cycleFlag := by
  unfold afterTurn; split <;> rfl
@[simp] theorem afterTurn_out : (afterTurn s).out = s.out := by
  unfold afterTurn; split <;> rfl
@[simp] theorem afterTurn_winEn : (afterTurn s).winEn = s.winEn := by
  unfold afterTurn; split <;> rfl
@[simp] theorem afterTurn_extEn : (afterTurn s).extEn = s.extEn := by
  unfold afterTurn; split <;> rfl
@[simp] theorem afterTurn_dev : (afterTurn s).dev = s.dev := by
  unfold afterTurn; split <;> rfl
@[simp] theorem afterTurn_periph : (afterTurn s).periph = s.periph := by
  unfold afterTurn; split <;> rfl
@[simp] theorem afterTurn_bench : (afterTurn s).bench = s.bench := by
  unfold afterTurn; split <;> rfl
@[simp] theorem afterTurn_busTrace : (afterTurn s).busTrace = s.busTrace := by
  unfold afterTurn; split <;> rfl
@[simp] theorem afterTurn_outTrace : (afterTurn s).outTrace = s.outTrace := by
  unfold afterTurn; split <;> rfl
@[simp] theorem afterTurn_periphTrace : (afterTurn s).periphTrace = s.periphTrace := by
  unfold afterTurn; split <;> rfl
@[simp] theorem afterTurn_dispatchTrace : (afterTurn s).dispatchTrace = s.dispatchTrace := by
  unfold afterTurn; split <;> rfl
@[simp] theorem afterTurn_ticksConsumed : (afterTurn s).ticksConsumed = s.ticksConsumed := by
  unfold afterTurn; split <;> rfl

/-! ### A choice between two states -/

@[simp] theorem State.ite_cfg (p : Prop) [Decidable p] (a b : State) :
    (if p then a else b).cfg = if p then a.cfg else b.cfg := by split <;> rfl
@[simp] theorem State.ite_fce (p : Prop) [Decidable p] (a b : State) :
    (if p then a else b).fce = if p then a.fce else b.fce := by split <;> rfl
@[simp] theorem State.ite_seq (p : Prop) [Decidable p] (a b : State) :
    (if p then a else b).seq = if p then a.seq else b.seq := by split <;> rfl
@[simp] theorem State.ite_cycleFlag (p : Prop) [Decidable p] (a b : State) :
    (if p then a else b).cycleFlag = if p then a.cycleFlag else b.cycleFlag := by split <;> rfl
@[simp] theorem State.ite_out (p : Prop) [Decidable p] (a b : State) :
    (if p then a else b).out = if p then a.out else b.out := by split <;> rfl
@[simp] theorem State.ite_winEn (p : Prop) [Decidable p] (a b : State) :
    (if p then a else b).winEn = if p then a.winEn else b.winEn := by split <;> rfl
@[simp] theorem State.ite_extEn (p : Prop) [Decidable p] (a b : State) :
    (if p then a else b).extEn = if p then a.extEn else b.extEn := by split <;> rfl
@[simp] theorem State.ite_dev (p : Prop) [Decidable p] (a b : State) :
    (if p then a else b).dev = if p then a.dev else b.dev := by split <;> rfl
@[simp] theorem State.ite_periph (p : Prop) [Decidable p] (a b : State) :
    (if p then a else b).periph = if p then a.periph else b.periph := by split <;> rfl
@[simp] theorem State.ite_agenda (p : Prop) [Decidable p] (a b : State) :
    (if p then a else b).agenda = if p then a.agenda else b.agenda := by split <;> rfl
@[simp] theorem State.ite_bench (p : Prop) [Decidable p] (a b : State) :
    (if p then a else b).bench = if p then a.bench else b.bench := by split <;> rfl
@[simp] theorem State.ite_draws (p : Prop) [Decidable p] (a b : State) :
    (if p then a else b).draws = if p then a.draws else b.draws := by split <;> rfl
@[simp] theorem State.ite_busTrace (p : Prop) [Decidable p] (a b : State) :
    (if p then a else b).busTrace = if p then a.busTrace else b.busTrace := by split <;> rfl
@[simp] theorem State.ite_outTrace (p : Prop) [Decidable p] (a b : State) :
    (if p then a else b).outTrace = if p then a.outTrace else b.outTrace := by split <;> rfl
@[simp] theorem State.ite_periphTrace (p : Prop) [Decidable p] (a b : State) :
    (if p then a else b).periphTrace = if p then a.periphTrace else b.periphTrace := by split <;> rfl
@[simp] theorem State.ite_dispatchTrace (p : Prop) [Decidable p] (a b : State) :
    (if p then a else b).dispatchTrace = if p then a.dispatchTrace else b.dispatchTrace := by split <;> rfl
@[simp] theorem State.ite_ticksConsumed (p : Prop) [Decidable p] (a b : State) :
    (if p then a else b).ticksConsumed = if p then a.ticksConsumed else b.ticksConsumed := by split <;> rfl

end Sys2Proof.Machine
end

