-- ==== Sys2Proof/Laws/Ops.lean ====
section
/-! SUPPORT. For each shared operation of Machine/Ops.lean one lemma that says all it can do. The register operations
are rewritten to `onFce` and `onSeq`, whose field lemmas are in Laws/State.lean. -/

namespace Sys2Proof.Machine

set_option Elab.async false

variable (s : State)

/-! ### Register operations as updates of one register file -/

@[simp] theorem toPhase_eq (p : Phase) : toPhase p s = s.onFce fun f => { f with phase := p } := by cases s; rfl

@[simp] theorem goto_eq (p : SeqPos) : goto p s = s.onSeq fun q => { q with pos := p } := by cases s; rfl

@[simp] theorem finish_eq (c : ResultCode) :
    finish c s = s.onFce fun f => { f with result := c, done := true, phase := .idle } := by cases s; rfl

@[simp] theorem enterReset_eq (n : BitVec 2) (c : ResultCode) :
    enterReset n c s = s.onFce fun f => { f with rsLeft := n, res := c, phase := .rs1 } := by cases s; rfl

@[simp] theorem publishReset_eq :
    publishReset s = s.onFce fun f => { f with result := f.res, done := true, phase := .idle } := by cases s; rfl

@[simp] theorem latch_eq (op : Byte) (o : Operands) :
    latch op o s = s.onFce fun f =>
      { f with
        op := op, blk := o.blk, addr := addrBits s.cfg.toParams o.addr, val := o.val, len := o.len
        done := false, idx := 0 } := by cases s; rfl

@[simp] theorem expect_eq (a : Nat) (v : Byte) :
    expect a v s = s.onFce fun f => { f with paddr := a, exp := v, pcnt := 0 } := by cases s; rfl

@[simp] theorem seed_eq (g : Byte) : seed g s = s.onSeq fun q => { q with g := g } := by cases s; rfl

@[simp] theorem clearMask_eq : clearMask s = s.onSeq fun q => { q with mask := 0 } := by cases s; rfl

@[simp] theorem flagIf_eq (failed : Bool) (bit : Byte) :
    flagIf failed bit s = s.onSeq fun q => { q with mask := if failed then q.mask ||| bit else q.mask } := by cases s; rfl

@[simp] theorem settle_eq : settle s = s := by cases s; rfl

@[simp] theorem onFce_onFce (f g : Fce → Fce) : (s.onFce f).onFce g = s.onFce fun x => g (f x) := by cases s; rfl

@[simp] theorem onSeq_onSeq (f g : Seq → Seq) : (s.onSeq f).onSeq g = s.onSeq fun x => g (f x) := by cases s; rfl

theorem onFce_onSeq (f : Fce → Fce) (g : Seq → Seq) : (s.onFce f).onSeq g = (s.onSeq g).onFce f := by cases s; rfl

/-! ### The flash window -/

/-- A store appends its event and reaches DEV where the window is enabled; nothing else changes. -/
theorem busWrite_spec (a : Nat) (d : Byte) :
    busWrite a d s =
      { s with
        dev := if s.winEn then s.dev.store s.cfg.toParams a d else s.dev
        busTrace := s.busTrace ++ [.w a d] } := by
  unfold busWrite State.logBus; split <;> simp

/-- A load appends its event with the answer; only DEV and the draw count may change besides. -/
theorem busRead_spec (a : Nat) :
    ∃ dev draws, busRead a s =
      { s with dev := dev, draws := draws, busTrace := s.busTrace ++ [.r a (devAnswer a s)] } := by
  refine ⟨(devAfterLoad a s).dev, (devAfterLoad a s).draws, ?_⟩
  unfold busRead State.logBus devAfterLoad State.countDraw
  split <;> [split; skip] <;> rfl

/-- Loads from a scripted oracle take its answers in order. -/
theorem busRead_oracle (a : Nat) (d : Byte) (rest : List Byte) (hw : s.winEn = true)
    (hd : s.dev = .oracle (d :: rest)) :
    devAnswer a s = d ∧ busRead a s = { s with dev := .oracle rest, busTrace := s.busTrace ++ [.r a d] } := by
  have h : devAnswer a s = d := by simp [devAnswer, hw, hd]
  refine ⟨h, ?_⟩
  simp [busRead, State.logBus, devAfterLoad, hw, hd, h]

/-- With the window disabled a store reaches no device and a load leaves DEV alone (R59, U4). -/
theorem closed_window_leaves_dev (h : s.winEn = false) (a : Nat) (d : Byte) :
    (busWrite a d s).dev = s.dev ∧ (busRead a s).dev = s.dev := by
  simp [h, devAfterLoad]

theorem devAfterLoad_cases (a : Nat) :
    (devAfterLoad a s).dev = s.dev ∨ (∃ d rest, s.dev = .oracle (d :: rest) ∧ (devAfterLoad a s).dev = .oracle rest) ∨
    (∃ r, s.dev = .refDev r ∧ (devAfterLoad a s).dev = .refDev (r.load s.cfg.toParams a).2) := by
  unfold devAfterLoad
  split
  · split
    · left; rfl
    · rename_i d rest h; right; left; exact ⟨d, rest, h, rfl⟩
    · rename_i r h; right; right; exact ⟨r, h, rfl⟩
  · left; rfl

theorem inWindow_next {a : Nat} {access : Result} {t : State} (h : inWindow a s access = .next t) :
    a < s.cfg.flashSize ∧ access = .next t := by
  unfold inWindow at h
  split at h
  · exact ⟨‹_›, h⟩
  · cases h

@[simp] theorem inWindow_of_lt {a : Nat} (access : Result) (h : a < s.cfg.flashSize) :
    inWindow a s access = access := by simp [inWindow, h]

/-! ### PERIPH -/

/-- A load from PERIPH changes only PERIPH's script and the draw count. -/
theorem periphAfterLoad_spec :
    ∃ periph draws, periphAfterLoad s = { s with periph := periph, draws := draws } := by
  refine ⟨(periphAfterLoad s).periph, (periphAfterLoad s).draws, ?_⟩
  unfold periphAfterLoad State.countDraw
  split <;> rfl

theorem periphRead_oracle (h : Handle) (d : Byte) (rest : List Byte) (hp : s.periph = .oracle (d :: rest)) :
    periphAnswer h s = d ∧
    periphRead h s = { s with periph := .oracle rest, periphTrace := s.periphTrace ++ [.read h d] } := by
  have ha : periphAnswer h s = d := by simp [periphAnswer, hp]
  exact ⟨ha, by simp [periphRead, State.logPeriph, periphAfterLoad, hp, ha]⟩

theorem periphAfterLoad_cells :
    (∀ m, s.periph = .cells m → (periphAfterLoad s).periph = .cells m) ∧
    ((∀ m, s.periph ≠ .cells m) → ∀ m, (periphAfterLoad s).periph ≠ .cells m) := by
  unfold periphAfterLoad
  constructor
  · intro m h; simp [h]
  · intro h m; split
    · simp_all
    · simp
    · simp_all

/-! ### Waiting -/

theorem waitTick_set (go : State → State) (h : s.cycleFlag = true) : waitTick go s = go (consumeTick s) := by
  simp [waitTick, h]

/-- With the flag clear SEQ is held (R154). -/
theorem waitTick_clear (go : State → State) (h : s.cycleFlag = false) : waitTick go s = s := by
  simp [waitTick, h]

theorem whenDone_set (go : State → State) (h : s.fce.done = true) : whenDone go s = go s := by
  simp [whenDone, h]

theorem whenDone_clear (go : State → State) (h : s.fce.done = false) : whenDone go s = s := by
  simp [whenDone, h]

/-! ### Requests -/

/-- The `addr` register never holds more than ADDR_W bits (R22). -/
theorem addrBits_lt (c : Params) (a : Nat) : addrBits c a < 2 ^ c.addrW := by
  unfold addrBits; split
  · assumption
  · exact Nat.mod_lt _ (Nat.two_pow_pos _)

/-- An operand that fits is taken whole. -/
theorem addrBits_of_lt {c : Params} {a : Nat} (h : a < 2 ^ c.addrW) : addrBits c a = a := if_pos h


theorem busy_eq (f : Fce) : f.busy = true ↔ f.phase ≠ .idle := by simp [Fce.busy]

theorem idle_eq (f : Fce) : f.busy = false ↔ f.phase = .idle := by simp [Fce.busy]

theorem start_busy (op : Byte) (o : Operands) (go : State → State) (h : s.fce.busy = true) :
    start op o go s = s := by simp [start, h]

theorem start_idle (op : Byte) (o : Operands) (go : State → State) (h : s.fce.busy = false) :
    start op o go s = go (latch op o s) := by simp [start, h]

end Sys2Proof.Machine
end

