-- ==== Sys2Proof/Laws/Requests.lean ====
section
/-! SUPPORT. Each request presented to an idle FCE as one update of its registers by the table of R121, and to a busy one
as nothing; the cases of the request decoder. -/

namespace Sys2Proof.Machine

set_option Elab.async false

section
variable (o : Operands) (s : State) (h : s.fce.phase = .idle)
include h

theorem identify_idle : exec (.identify o) s = .next { s with fce := acceptance s.cfg.toParams 0x01 o s.fce } := by
  simp [exec, execIdentify, acceptIdentify, start, Fce.busy, h, acceptance, State.onFce, Fce.latched]

theorem eraseBlock_idle : exec (.eraseBlock o) s = .next { s with fce := acceptance s.cfg.toParams 0x02 o s.fce } := by
  simp only [exec, execEraseBlock, acceptEraseBlock, start, Fce.busy, h, acceptance, whenIdentified, latch]
  by_cases hv : s.fce.idValid = true <;> by_cases hk : s.cfg.numBlocks ≤ o.blk.toNat <;> simp [hv, hk] <;> rfl

theorem programByte_idle : exec (.programByte o) s = .next { s with fce := acceptance s.cfg.toParams 0x03 o s.fce } := by
  simp only [exec, execProgramByte, acceptProgramByte, start, Fce.busy, h, acceptance, whenIdentified, latch]
  by_cases hv : s.fce.idValid = true <;> by_cases hk : s.cfg.flashSize ≤ o.addr <;> simp [hv, hk] <;> rfl

theorem programBuffer_idle : exec (.programBuffer o) s = .next { s with fce := acceptance s.cfg.toParams 0x04 o s.fce } := by
  have e : (o.len.toNat = 0) ↔ (o.len = 0) := by simp [BitVec.toNat_eq]
  have a : acceptance s.cfg.toParams 0x04 o s.fce =
      if o.len.toNat > s.cfg.bufMax ∨ o.addr + o.len.toNat > s.cfg.flashSize then (s.fce.latched s.cfg.toParams 0x04 o).ended .invalidAddress
      else if s.fce.idValid = false then (s.fce.latched s.cfg.toParams 0x04 o).ended .notIdentified
      else if o.len = 0 then (s.fce.latched s.cfg.toParams 0x04 o).resetting 1 .ok
      else { s.fce.latched s.cfg.toParams 0x04 o with phase := .pg1 } := rfl
  rw [a]
  have b : s.fce.busy = false := by simp [Fce.busy, h]
  simp only [exec, execProgramBuffer, acceptProgramBuffer, start_idle s _ _ _ b]
  by_cases hk : o.len.toNat > s.cfg.bufMax ∨ o.addr + o.len.toNat > s.cfg.flashSize
  · rw [if_pos hk, if_pos hk]; rfl
  · rw [if_neg hk, if_neg hk]
    unfold whenIdentified
    cases hv : s.fce.idValid
    · rw [if_neg (by simp [hv]), if_pos rfl]; rfl
    · rw [if_pos (by simp [hv]), if_neg (by simp)]
      beta_reduce
      by_cases hl : o.len = 0
      · rw [if_pos (e.mpr hl), if_pos hl]; rfl
      · rw [if_neg (mt e.mp hl), if_neg hl]; rfl

theorem read_idle : exec (.read o) s = .next { s with fce := acceptance s.cfg.toParams 0x05 o s.fce } := by
  simp only [exec, execRead, acceptRead, start, Fce.busy, h, acceptance, latch]
  by_cases hk : s.cfg.flashSize ≤ o.addr <;> simp [hk] <;> rfl

theorem reset_idle : exec (.reset o) s = .next { s with fce := acceptance s.cfg.toParams 0x06 o s.fce } := by
  simp [exec, execReset, acceptReset, start, Fce.busy, h, acceptance, State.onFce, Fce.latched, Fce.resetting]

theorem reserved_idle (op : Byte) : exec (.reservedRequest op o) s = .next { s with fce := (s.fce.latched s.cfg.toParams op o).ended .invalidOp } := by
  simp [exec, execReservedRequest, acceptReserved, start, Fce.busy, h, State.onFce, Fce.latched, Fce.ended]
end

theorem op_cases (op : Byte) (o : Operands) :
    op = 0x01 ∧ decodeReq op o = .identify o ∨ op = 0x02 ∧ decodeReq op o = .eraseBlock o ∨
    op = 0x03 ∧ decodeReq op o = .programByte o ∨ op = 0x04 ∧ decodeReq op o = .programBuffer o ∨
    op = 0x05 ∧ decodeReq op o = .read o ∨ op = 0x06 ∧ decodeReq op o = .reset o ∨
    (op = 0x00 ∨ 7 ≤ op.toNat) ∧ decodeReq op o = .reservedRequest op o := by
  have hn : ∀ n : Nat, n < 256 → op.toNat = n → op = BitVec.ofNat 8 n := by
    intro n hn e; apply BitVec.eq_of_toNat_eq; rw [e]; simp; omega
  by_cases h1 : op.toNat = 1
  · have := hn 1 (by omega) h1; subst this; left; exact ⟨rfl, rfl⟩
  by_cases h2 : op.toNat = 2
  · have := hn 2 (by omega) h2; subst this; right; left; exact ⟨rfl, rfl⟩
  by_cases h3 : op.toNat = 3
  · have := hn 3 (by omega) h3; subst this; right; right; left; exact ⟨rfl, rfl⟩
  by_cases h4 : op.toNat = 4
  · have := hn 4 (by omega) h4; subst this; right; right; right; left; exact ⟨rfl, rfl⟩
  by_cases h5 : op.toNat = 5
  · have := hn 5 (by omega) h5; subst this; right; right; right; right; left; exact ⟨rfl, rfl⟩
  by_cases h6 : op.toNat = 6
  · have := hn 6 (by omega) h6; subst this; right; right; right; right; right; left; exact ⟨rfl, rfl⟩
  right; right; right; right; right; right
  refine ⟨?_, ?_⟩
  · by_cases h0 : op.toNat = 0
    · left; exact hn 0 (by omega) h0
    · right; omega
  · unfold decodeReq; split <;> first | omega | rfl

theorem reserved_acceptance (c : Params) (op : Byte) (o : Operands) (f : Fce) (h : op = 0x00 ∨ 7 ≤ op.toNat) :
    acceptance c op o f = (f.latched c op o).ended .invalidOp := by
  have : ∀ n : BitVec 8, 0 < n.toNat → n.toNat < 7 → op ≠ n := by
    rintro n h1 h2 rfl; rcases h with rfl | h
    · simp at h1
    · omega
  unfold acceptance
  rw [if_neg (this 1 (by decide) (by decide)), if_neg (this 2 (by decide) (by decide)), if_neg (this 3 (by decide) (by decide)),
    if_neg (this 4 (by decide) (by decide)), if_neg (this 5 (by decide) (by decide)), if_neg (this 6 (by decide) (by decide))]

/-- A request of any opcode presented to an idle FCE (R121). -/
theorem accept_idle (op o) (s : State) (h : s.fce.phase = .idle) :
    exec (decodeReq op o) s = .next { s with fce := acceptance s.cfg.toParams op o s.fce } := by
  rcases op_cases op o with ⟨rfl, e⟩ | ⟨rfl, e⟩ | ⟨rfl, e⟩ | ⟨rfl, e⟩ | ⟨rfl, e⟩ | ⟨rfl, e⟩ | ⟨hr, e⟩ <;> rw [e]
  · exact identify_idle o s h
  · exact eraseBlock_idle o s h
  · exact programByte_idle o s h
  · exact programBuffer_idle o s h
  · exact read_idle o s h
  · exact reset_idle o s h
  · rw [reserved_idle o s h, reserved_acceptance _ _ _ _ hr]

theorem request_busy (i : Instr) (s : State) (hi : i.isRequest = true) (h : s.fce.phase ≠ .idle) : exec i s = .next s := by
  cases i <;> simp_all [Instr.isRequest] <;>
  simp [exec, execIdentify, acceptIdentify, execEraseBlock, acceptEraseBlock, execProgramByte, acceptProgramByte, execProgramBuffer, acceptProgramBuffer, execRead, acceptRead, execReset, acceptReset, execReservedRequest, acceptReserved, start, Fce.busy, h]

theorem decodeReq_isRequest (op o) : (decodeReq op o).isRequest = true := by
  unfold decodeReq; split <;> rfl

end Sys2Proof.Machine
end

