-- ==== Sys2Proof/Laws/Fce.lean ====
section
/-! SUPPORT. What the constraints of R9 give, the shape of a store row and of a load row, the exits of R124 as one update
of FCE's registers, and where FCE's invariant keeps its targets. -/

namespace Sys2Proof.Machine

set_option Elab.async false

theorem cfgOk (c : Cfg) : c.windowOk ∧ c.blocksOk ∧ c.boundsOk ∧ c.tablesOk := by
  have h := c.ok
  simpa [Params.wf, and_assoc] using h

/-- Every window offset fits the ADDR_W bits of an address register (R9, R22). -/
theorem window_fits (c : Cfg) {a : Nat} (h : a < c.flashSize) : a < 2 ^ c.addrW :=
  Nat.lt_of_lt_of_le h (cfgOk c).1.2.1

/-- An address of the window is latched whole (R22). -/
theorem latched_addr (c : Cfg) (op : Byte) {o : Operands} (f : Fce) (h : o.addr < c.flashSize) :
    (f.latched c.toParams op o).addr = o.addr := addrBits_of_lt (window_fits c h)

theorem blockOffset_lt (c : Cfg) (b : Nat) (h : b < c.numBlocks) : blockOffset c.toParams b < c.flashSize :=
  ((cfgOk c).2.1.2.2.2.2.2.1 b h).1

/-- What a store row does, whatever registers it writes. -/
theorem storeRow (s : State) (a d) (g : Fce → Fce) :
    FceOnly s [.w a d] ((busWrite a d s).onFce g) ∧ ((busWrite a d s).onFce g).fce = g s.fce := by
  rw [busWrite_spec]
  exact ⟨⟨_, _, _, rfl⟩, rfl⟩

/-- What a load row does, whatever registers it writes. -/
theorem loadRow (s : State) (a) (g : Fce → Fce) :
    FceOnly s [.r a (devAnswer a s)] ((busRead a s).onFce g) ∧ ((busRead a s).onFce g).fce = g s.fce := by
  obtain ⟨dev, draws, h⟩ := busRead_spec s a
  rw [h]
  exact ⟨⟨_, _, _, rfl⟩, rfl⟩

theorem onFce_eq {s : State} {g : Fce → Fce} {f : Fce} (h : g s.fce = f) : s.onFce g = { s with fce := f } := by
  rw [← h]; rfl

theorem pollSuccess_eq (s : State) (h : s.fce.op = 0x02 ∨ s.fce.op = 0x03 ∨ s.fce.op = 0x04) :
    pollSuccess s = .next { s with fce := pollExit s.fce .success } := by
  rcases h with h | h | h
  · simp [pollSuccess, h]; refine onFce_eq ?_; rw [pollExit, if_pos h]; rfl
  · simp [pollSuccess, h]; refine onFce_eq ?_; rw [pollExit, if_neg (by rw [h]; decide), if_pos h]; rfl
  · simp [pollSuccess, h, nextElement]
    split <;> refine onFce_eq ?_ <;> rw [pollExit, if_neg (by rw [h]; decide), if_neg (by rw [h]; decide)]
    · rename_i k; rw [if_pos k]; rfl
    · rename_i k; rw [if_neg k]; rfl

theorem pollFailure_eq (s : State) (h : s.fce.op = 0x02 ∨ s.fce.op = 0x03 ∨ s.fce.op = 0x04) :
    pollFailure s = .next { s with fce := pollExit s.fce .failure } := by
  rcases h with h | h | h
  · simp [pollFailure, h]; refine onFce_eq ?_; rw [pollExit, if_pos h]; rfl
  · simp [pollFailure, h]; refine onFce_eq ?_; rw [pollExit, if_neg (by rw [h]; decide), if_pos h]; rfl
  · simp [pollFailure, h, failElement]
    refine onFce_eq ?_; rw [pollExit, if_neg (by rw [h]; decide), if_neg (by rw [h]; decide)]; rfl

theorem pollTimeout_eq (s : State) (h : s.fce.op = 0x02 ∨ s.fce.op = 0x03 ∨ s.fce.op = 0x04) :
    pollTimeout s = .next { s with fce := pollExit s.fce .timeout } := by
  rcases h with h | h | h
  · simp [pollTimeout, h]; refine onFce_eq ?_; rw [pollExit, if_pos h]; rfl
  · simp [pollTimeout, h]; refine onFce_eq ?_; rw [pollExit, if_neg (by rw [h]; decide), if_pos h]; rfl
  · simp [pollTimeout, h, failElement]
    refine onFce_eq ?_; rw [pollExit, if_neg (by rw [h]; decide), if_neg (by rw [h]; decide)]; rfl

theorem erasing_lt {c : Cfg} {f : Fce} (h : f.erasing c.toParams) : blockOffset c.toParams f.blk.toNat < c.flashSize :=
  blockOffset_lt c _ h.2.1

theorem programming_lt {c : Params} {f : Fce} (h : f.programming c) : f.addr + f.idx.toNat < c.flashSize := by
  obtain ⟨_, ⟨_, h2, h3⟩ | ⟨_, _, h3, h4⟩⟩ := h
  · simpa [h2] using h3
  · omega

theorem polling_lt {c : Cfg} {f : Fce} (h : f.polling c.toParams) : f.paddr < c.flashSize := by
  obtain ⟨h, e, _⟩ | ⟨h, e⟩ := h
  · rw [e]; exact erasing_lt h
  · rw [e]; exact programming_lt h

theorem polling_op {c : Params} {f : Fce} (h : f.polling c) : f.op = 0x02 ∨ f.op = 0x03 ∨ f.op = 0x04 := by
  obtain ⟨h, _⟩ | ⟨⟨_, h | h⟩, _⟩ := h
  · left; exact h.1
  · right; left; exact h.1
  · right; right; exact h.1

theorem fceRun_add (m n : Nat) (s t : State) (h : fceRun m s = .next t) : fceRun (m + n) s = fceRun n t := by
  induction m generalizing s with
  | zero => cases h; simp
  | succ m ih =>
    rw [Nat.add_right_comm]
    simp only [fceRun] at h ⊢
    cases hs : fceStep s with
    | next v => rw [hs] at h; exact ih v h
    | fault r => rw [hs] at h; cases h
    | refused r => rw [hs] at h; cases h

end Sys2Proof.Machine
end

