-- ==== Sys2Proof/Laws/PerInstr.lean ====
section
/-! SUPPORT. The family RowFormat: every row is encoded in its own format of R90, a request as a tuple, a wire command as
store cycles, a test as a state code. -/

namespace Sys2Proof.Laws.RowFormat

open Sys2Proof Sys2Proof.Machine

set_option Elab.async false

/-- The format of the encoding is the format of the row. -/
def Statement (i : Instr) : Prop :=
  (i.isRequest = true ↔ ∃ op o, encode i = .req op o) ∧ (i.isWire = true ↔ ∃ cycles, encode i = .cyc cycles)

theorem identify (o : Operands) : Statement (.identify o) := by simp [Statement, Instr.isRequest, Instr.isWire, encode]
theorem eraseBlock (o : Operands) : Statement (.eraseBlock o) := by simp [Statement, Instr.isRequest, Instr.isWire, encode]
theorem programByte (o : Operands) : Statement (.programByte o) := by simp [Statement, Instr.isRequest, Instr.isWire, encode]
theorem programBuffer (o : Operands) : Statement (.programBuffer o) := by simp [Statement, Instr.isRequest, Instr.isWire, encode]
theorem read (o : Operands) : Statement (.read o) := by simp [Statement, Instr.isRequest, Instr.isWire, encode]
theorem reset (o : Operands) : Statement (.reset o) := by simp [Statement, Instr.isRequest, Instr.isWire, encode]
theorem reservedRequest (op : Byte) (o : Operands) : Statement (.reservedRequest op o) := by simp [Statement, Instr.isRequest, Instr.isWire, encode]
theorem seqAutoselect : Statement .seqAutoselect := by simp [Statement, Instr.isRequest, Instr.isWire, encode]
theorem seqReset : Statement .seqReset := by simp [Statement, Instr.isRequest, Instr.isWire, encode]
theorem seqProgram (address : Nat) (value : Byte) : Statement (.seqProgram address value) := by simp [Statement, Instr.isRequest, Instr.isWire, encode]
theorem seqBlockErase (offset : Nat) : Statement (.seqBlockErase offset) := by simp [Statement, Instr.isRequest, Instr.isWire, encode]
theorem testError : Statement .testError := by simp [Statement, Instr.isRequest, Instr.isWire, encode]
theorem soutBus : Statement .soutBus := by simp [Statement, Instr.isRequest, Instr.isWire, encode]
theorem plisRegisters : Statement .plisRegisters := by simp [Statement, Instr.isRequest, Instr.isWire, encode]
theorem dataBus : Statement .dataBus := by simp [Statement, Instr.isRequest, Instr.isWire, encode]
theorem fram : Statement .fram := by simp [Statement, Instr.isRequest, Instr.isWire, encode]
theorem twoRam : Statement .twoRam := by simp [Statement, Instr.isRequest, Instr.isWire, encode]
theorem extBus : Statement .extBus := by simp [Statement, Instr.isRequest, Instr.isWire, encode]
theorem reservedTestId : Statement .reservedTestId := by simp [Statement, Instr.isRequest, Instr.isWire, encode]

end Sys2Proof.Laws.RowFormat
end

