-- ==== Sys2Proof/Laws/Step.lean ====
section
/-! SUPPORT. What a turn of each agent can do, said once: inversion lemmas to cite instead of unfolding the step. -/

namespace Sys2Proof.Machine

set_option Elab.async false

/-- One step of the body of a test, as a function of states. -/
def bodyStep : TestId → State → State
  | .error => sharedStep .error (goto (.showSet .noError))
  | .soutBus => soutBusStep
  | .plisRegisters => plisStep
  | .dataBus => dataBusStep
  | .fram => framStep
  | .twoRam => twoRamStep
  | .extBus => extBusStep

/-- A test never faults and never refuses. -/
theorem exec_body (self : TestId) (s : State) : exec (TestId.instr self) s = .next (bodyStep self s) := by
  cases self <;> rfl

/-- While FCE is busy the core's turn is one FCE step (R123). -/
theorem core_busy (s : State) (h : s.fce.phase ≠ .idle) : agentStep .core s = fceStep s := by
  simp only [agentStep, fetch, coreFetch, Fce.busy, bne_iff_ne, ne_eq, h, not_false_eq_true, if_true]
  unfold fceStep noFetch
  unfold phaseCommand
  cases h : s.fce.phase <;> simp_all [exec]

/-- While FCE is idle the core's turn runs the test in `cur` (R28). -/
theorem core_idle (s : State) (h : s.fce.phase = .idle) : agentStep .core s = exec (decodeTid s.seq.cur) s := by
  simp [agentStep, fetch, coreFetch, Fce.busy, h]

theorem tid_cases (c : BitVec 3) : (∃ self, c = TestId.code self ∧ decodeTid c = TestId.instr self) ∨ (c = 7 ∧ decodeTid c = .reservedTestId) := by
  have : c = 0 ∨ c = 1 ∨ c = 2 ∨ c = 3 ∨ c = 4 ∨ c = 5 ∨ c = 6 ∨ c = 7 := by revert c; decide
  rcases this with rfl | rfl | rfl | rfl | rfl | rfl | rfl | rfl
  · exact .inl ⟨.error, rfl, rfl⟩
  · exact .inl ⟨.soutBus, rfl, rfl⟩
  · exact .inl ⟨.plisRegisters, rfl, rfl⟩
  · exact .inl ⟨.dataBus, rfl, rfl⟩
  · exact .inl ⟨.fram, rfl, rfl⟩
  · exact .inl ⟨.twoRam, rfl, rfl⟩
  · exact .inl ⟨.extBus, rfl, rfl⟩
  · exact .inr ⟨rfl, rfl⟩

/-- What a turn of the core can do while FCE is idle. -/
theorem core_idle_next (s t : State) (h : s.fce.phase = .idle) (hs : agentStep .core s = .next t) :
    ∃ self, s.seq.cur = TestId.code self ∧ t = bodyStep self s := by
  rw [core_idle s h] at hs
  rcases tid_cases s.seq.cur with ⟨self, h1, h2⟩ | ⟨_, h2⟩
  · rw [h2, exec_body] at hs; cases hs; exact ⟨self, h1, rfl⟩
  · rw [h2] at hs; cases hs

/-- What a requester's turn can do. -/
theorem bench_next (s t : State) (hs : agentStep .bench s = .next t) :
    (∃ op o rest, s.bench = .start op o :: rest ∧ ∃ g, t = { s with bench := rest, fce := g } ∧ (s.fce.phase = .idle → g = acceptance s.cfg.toParams op o s.fce) ∧ (s.fce.phase ≠ .idle → g = s.fce)) ∨
    (∃ i d rest, s.bench = .bufWrite i d :: rest ∧ i < s.cfg.bufMax ∧ t = { s with bench := rest, fce := { s.fce with buf := s.fce.buf.write i d } }) ∨
    (∃ rest, s.bench = .openWindow :: rest ∧
      t = { s with bench := rest, winEn := true, periphTrace := s.periphTrace ++ [.flashWindow true] }) ∨
    (s.bench = [] ∧ t = s) := by
  cases hb : s.bench with
  | nil => simp [agentStep, fetch, hb, noFetch, benchWrite] at hs; right; right; right; exact ⟨rfl, hs.symm⟩
  | cons e rest =>
    cases e with
    | start op o =>
      left; refine ⟨op, o, rest, rfl, ?_⟩
      simp [agentStep, fetch, hb] at hs
      by_cases hp : s.fce.phase = .idle
      · rw [accept_idle op o _ (by exact hp)] at hs; cases hs
        exact ⟨_, rfl, fun _ => rfl, fun h => absurd hp h⟩
      · rw [request_busy _ _ (decodeReq_isRequest op o) (by exact hp)] at hs; cases hs
        exact ⟨_, rfl, fun h => absurd h hp, fun _ => rfl⟩
    | bufWrite i d =>
      right; left; refine ⟨i, d, rest, rfl, ?_⟩
      simp [agentStep, fetch, hb, noFetch, benchWrite, bufWrite] at hs
      split at hs
      · cases hs; exact ⟨‹_›, rfl⟩
      · cases hs
    | openWindow =>
      right; right; left; refine ⟨rest, rfl, ?_⟩
      simp [agentStep, fetch, hb, noFetch, benchWrite, flashWindow, State.logPeriph] at hs
      exact hs.symm

theorem afterTurn_eq (s : State) : (∃ rest draws, afterTurn s = { s with agenda := rest, draws := draws }) := by
  unfold afterTurn State.countDraw
  split
  · exact ⟨s.agenda, _, rfl⟩
  · exact ⟨_, s.draws, rfl⟩

theorem coreRun_add (m n : Nat) (s t : State) (h : coreRun m s = .next t) : coreRun (m + n) s = coreRun n t := by
  induction m generalizing s with
  | zero => cases h; simp
  | succ m ih =>
    rw [Nat.add_right_comm]
    simp only [coreRun] at h ⊢
    cases hs : coreTurn s with
    | next v => rw [hs] at h; exact ih v h
    | fault r => rw [hs] at h; cases h
    | refused r => rw [hs] at h; cases h

theorem coreRun_succ (n : Nat) (s t : State) (h : coreTurn s = .next t) : coreRun (n + 1) s = coreRun n t := by
  simp [coreRun, h]

end Sys2Proof.Machine
end

