-- ==== Sys2Proof/Tests/Slice0.lean ====
section
/-! SUPPORT. Tests: ill-formed terms refused, words written out from the spec's encodings, single steps with the values
of 95_test_vectors.md, and for every statement with hypotheses a state and operands that meet them. -/

namespace Sys2Proof.Tests

open Sys2Proof Sys2Proof.Machine

set_option Elab.async false

/-! ### Helpers: the configurations CFG-A and CFG-B of 95_test_vectors.md section 0 -/

/-- CFG-A; `dbPerm` and `dbCmpMask` are R161's defaults. -/
def cfgA : Cfg :=
  { flashSize := 0x2000, addrW := 13, numBlocks := 2, blockOffset := [0, 0x1000], blockSize := [0x1000, 0x1000],
    blockKind := [.mainBlock, .mainBlock], manufacturer := 0x01, deviceCode := 0xAB, idMfrOffset := 0, idDevOffset := 2,
    pollBound := 4, dq3Bound := 3, bufMax := 16, errorDisplayTicks := 2, versionExpected := 0x77,
    aliasSentinel := [0x11, 0x22, 0x33, 0x44],
    extbusPattern := [5, 6, 7], ok := by decide +kernel }

/-- CFG-B with the toy table, and the `TwoRam` parameters of vector U3. -/
def cfgB : Cfg :=
  { cfgA with
    flashSize := 0x1000, addrW := 12, blockOffset := [0, 0x800], blockSize := [2, 2]
    crc8 := (List.range 256).map fun x => BitVec.ofNat 8 (5 * x + 1)
    ramLen := 2, tworamTicks := 1, keyImm := [0], keyDel := [1], ok := by decide +kernel }

/-- CFG-B with a first block that has no byte. -/
def cfgEmptyFirst : Cfg := { cfgB with blockSize := [0, 2], ok := by decide +kernel }

/-- CFG-B with no block that has a byte. -/
def cfgEmpty : Cfg := { cfgB with blockSize := [0, 0], ok := by decide +kernel }

/-- The reset state under a configuration, the window enabled, DEV scripted. -/
def flash (c : Cfg) (idv : Bool) (answers : List Byte) : State :=
  { State.reset with
    cfg := c, winEn := true, dev := .oracle answers, fce := { Fce.reset with idValid := idv } }

/-- SEQ at position `p` of test `self`, PERIPH scripted, the enables as `SeqInv` has them there. -/
def seqAt (c : Cfg) (self : TestId) (p : SeqPos) (answers : List Byte) : State :=
  { State.reset with
    cfg := c, periph := .oracle answers, winEn := p.windowOpen, extEn := p.extOpen
    seq := { Seq.reset with cur := self.code, pos := p } }

/-- FCE at phase `p`. -/
def atPhase (p : Phase) (s : State) : State := toPhase p s

/-- The answer is a next state with property `p`. -/
def nextHas (r : Result) (p : State → Bool) : Bool :=
  match r with
  | .next t => p t
  | .fault _ => false
  | .refused _ => false

/-- The answer is a next state. -/
def runs (r : Result) : Bool := nextHas r fun _ => true

/-- Operands with the given fields. -/
def ops (blk : Byte) (addr : Nat) (val : Byte) (len : BitVec 16) : Operands := ⟨blk, addr, val, len⟩

/-! ### WellFormed: one ill-formed term for each check -/

theorem test_smoke_address_too_wide : (Instr.read (ops 0 (2 ^ 13) 0 0)).wellFormed cfgA.toParams = false := by decide +kernel
theorem test_smoke_reserved_row_with_a_legal_opcode :
    (Instr.reservedRequest 0x06 (ops 0 0 0 0)).wellFormed cfgA.toParams = false := by decide +kernel
theorem test_smoke_program_outside_the_window : (Instr.seqProgram 0x2000 0).wellFormed cfgA.toParams = false := by
  decide +kernel
theorem test_smoke_erase_of_no_block : (Instr.seqBlockErase 0x0800).wellFormed cfgA.toParams = false := by decide +kernel
theorem test_smoke_configuration_that_breaks_R9 : Cfg.ofParams? { cfgA with addrW := 12 } = none := by decide +kernel
theorem test_wellFormed_at_the_boundaries :
    (Instr.read (ops 0 (2 ^ 13 - 1) 0 0)).wellFormed cfgA.toParams = true ∧
    (Instr.seqProgram 0x1FFF 0xFF).wellFormed cfgA.toParams = true ∧
    (Instr.seqBlockErase 0x1000).wellFormed cfgA.toParams = true ∧
    (Instr.reservedRequest 0x00 (ops 0 0 0 0)).wellFormed cfgA.toParams = true ∧
    (Instr.reservedRequest 0x07 (ops 0 0 0 0)).wellFormed cfgA.toParams = true := by decide +kernel

/-! ### Decoding: words written out from R90, R92 to R95, R100, R102 -/

/-- Op in bits 7..0, blk 15..8, val 23..16, len 39..24, addr above (log 2). -/
theorem test_decode_identify : decodeTableWord 8 0x01 = some (.identify (ops 0 0 0 0)) := by decide +kernel
theorem test_decode_eraseBlock : decodeTableWord 16 0x0102 = some (.eraseBlock (ops 1 0 0 0)) := by decide +kernel
theorem test_decode_programByte :
    decodeTableWord 56 0x1FFF0000120003 = some (.programByte (ops 0 0x1FFF 0x12 0)) := by decide +kernel
theorem test_decode_programBuffer :
    decodeTableWord 56 0x10000002000004 = some (.programBuffer (ops 0 0x1000 0 2)) := by decide +kernel
theorem test_decode_read : decodeTableWord 56 0x10000000000005 = some (.read (ops 0 0x1000 0 0)) := by decide +kernel
theorem test_decode_reset : decodeTableWord 8 0x06 = some (.reset (ops 0 0 0 0)) := by decide +kernel
theorem test_decode_reserved_requests :
    decodeTableWord 8 0x00 = some (.reservedRequest 0x00 (ops 0 0 0 0)) ∧
    decodeTableWord 8 0x07 = some (.reservedRequest 0x07 (ops 0 0 0 0)) ∧
    decodeTableWord 8 0xFF = some (.reservedRequest 0xFF (ops 0 0 0 0)) := by decide +kernel
/-- A cycle is 24 bits: offset in 15..0, byte in 23..16; the first cycle lowest. -/
theorem test_decode_seqAutoselect : decodeTableWord 72 0x900AAA550555AA0AAA = some .seqAutoselect := by decide +kernel
theorem test_decode_seqReset : decodeTableWord 72 0xF00AAA550555AA0AAA = some .seqReset := by decide +kernel
theorem test_decode_seqProgram :
    decodeTableWord 96 0x121000A00AAA550555AA0AAA = some (.seqProgram 0x1000 0x12) := by decide +kernel
theorem test_decode_seqBlockErase :
    decodeTableWord 144 0x301000550555AA0AAA800AAA550555AA0AAA = some (.seqBlockErase 0x1000) := by decide +kernel
theorem test_decode_testIds :
    decodeTableWord 3 0b000 = some .testError ∧ decodeTableWord 3 0b001 = some .soutBus ∧
    decodeTableWord 3 0b010 = some .plisRegisters ∧ decodeTableWord 3 0b011 = some .dataBus ∧
    decodeTableWord 3 0b100 = some .fram ∧ decodeTableWord 3 0b101 = some .twoRam ∧
    decodeTableWord 3 0b110 = some .extBus ∧ decodeTableWord 3 0b111 = some .reservedTestId := by decide +kernel
theorem test_decode_refuses_by_name :
    decode (.cyc [⟨0xAAA, 0xAA⟩, ⟨0x555, 0x55⟩]) = .error .badLength ∧
    decode (.cyc [⟨0xAAA, 0xAA⟩, ⟨0x555, 0x54⟩, ⟨0xAAA, 0x90⟩]) = .error .badUnlock ∧
    decode (.cyc [⟨0xAAA, 0xAA⟩, ⟨0x555, 0x55⟩, ⟨0xAAA, 0x91⟩]) = .error .unknownCommand := by
  exact ⟨rfl, rfl, rfl⟩

/-- The next step runs the word: one of each format, from reset. -/
theorem test_fetch_runs_the_word :
    step (State.reset.withFetchWord 8 0x06) = exec (.reset (ops 0 0 0 0)) State.reset ∧
    step (State.reset.withFetchWord 3 0b110) =
      exec .extBus { State.reset with seq := { Seq.reset with cur := 6 } } ∧
    step (State.reset.withFetchWord 72 0x900AAA550555AA0AAA) = exec .seqAutoselect (atPhase .as1 State.reset) :=
  ⟨rfl, rfl, rfl⟩

/-! ### Single steps: requests (95_test_vectors.md sections 2 and 3) -/

/-- I1, first step. -/
theorem test_identify_starts : nextHas (exec (.identify (ops 0 0 0 0)) (flash cfgA false []))
    (fun t => t.fce.phase == .as1 && !t.fce.done) = true := by decide +kernel
/-- E7: the block check comes before the identity check. -/
theorem test_erase_bad_block_unidentified : nextHas (exec (.eraseBlock (ops 2 0 0 0)) (flash cfgA false []))
    (fun t => t.fce.result == .invalidBlock && t.fce.done && t.busTrace == []) = true := by decide +kernel
/-- P-1: an address that needs a 14th bit is answered `InvalidAddress` (what the latch keeps of it is free, log 42). -/
theorem test_program_outside : nextHas (exec (.programByte (ops 0 0x2000 1 0)) (flash cfgA true []))
    (fun t => t.fce.result == .invalidAddress && t.fce.done && t.busTrace == []) = true := by decide +kernel
/-- B4 and B6: `addr + len` against FLASH_SIZE, without wrap. -/
theorem test_buffer_range :
    nextHas (exec (.programBuffer (ops 0 0x1FFF 0 2)) (flash cfgA true [])) (fun t => t.fce.result == .invalidAddress)
      = true ∧
    nextHas (exec (.programBuffer (ops 0 0x1FFE 0 2)) (flash cfgA true [])) (fun t => t.fce.phase == .pg1) = true := by
  decide +kernel
/-- B9: `NotIdentified` before the empty buffer; B3: the empty buffer is a reset sequence. -/
theorem test_buffer_empty :
    nextHas (exec (.programBuffer (ops 0 0x1000 0 0)) (flash cfgA false [])) (fun t => t.fce.result == .notIdentified)
      = true ∧
    nextHas (exec (.programBuffer (ops 0 0x1000 0 0)) (flash cfgA true []))
      (fun t => t.fce.phase == .rs1 && t.fce.rsLeft == 1) = true := by decide +kernel
/-- R-1: no identity needed. -/
theorem test_read_unidentified : nextHas (exec (.read (ops 0 0x1000 0 0)) (flash cfgA false []))
    (fun t => t.fce.phase == .rd) = true := by decide +kernel
/-- R-3, first step. -/
theorem test_reset_starts : nextHas (exec (.reset (ops 0 0 0 0)) (flash cfgA false []))
    (fun t => t.fce.phase == .rs1 && t.fce.rsLeft == 1) = true := by decide +kernel
/-- R-6. -/
theorem test_reserved_opcode : nextHas (exec (.reservedRequest 0xFF (ops 0 0 0 0)) (flash cfgA true []))
    (fun t => t.fce.result == .invalidOp && t.fce.done && t.fce.idValid) = true := by decide +kernel
/-- R-7: a `Start` while busy writes no latch. -/
theorem test_start_while_busy : exec (.read (ops 0 0x1000 0 0)) (atPhase .rs2 (flash cfgA true [])) =
    .next (atPhase .rs2 (flash cfgA true [])) := rfl

/-- R234: from reset a requester enables the window, then its `IDENTIFY` is accepted. -/
theorem test_bench_enables_the_window :
    let s : State := { State.reset with agenda := [.bench, .bench], bench := [.openWindow, .start 0x01 (ops 0 0 0 0)] }
    nextHas (step s) (fun t => t.winEn && t.periphTrace == [.flashWindow true] &&
      nextHas (step t) (fun u => u.winEn && u.fce.phase == .as1)) = true := by decide +kernel

/-! ### Single steps: wire commands and load rows -/

/-- R92, cycle 3. -/
theorem test_autoselect_last : nextHas (exec .seqAutoselect (atPhase .as3 (flash cfgA true [])))
    (fun t => t.busTrace == [.w 0xAAA 0x90] && t.fce.phase == .idr1) = true := by decide +kernel
/-- Row RS3 with one sequence left, and with two. -/
theorem test_reset_last :
    nextHas (exec .seqReset (atPhase .rs3 { flash cfgA true [] with fce := { Fce.reset with rsLeft := 1, res := .timeout } }))
      (fun t => t.busTrace == [.w 0xAAA 0xF0] && t.fce.phase == .idle && t.fce.done && t.fce.result == .timeout) = true ∧
    nextHas (exec .seqReset (atPhase .rs3 { flash cfgA true [] with fce := { Fce.reset with rsLeft := 2, res := .timeout } }))
      (fun t => t.fce.phase == .rs1 && !t.fce.done && t.fce.rsLeft == 1) = true := by decide +kernel
/-- P-3, fourth store. -/
theorem test_program_last : nextHas (exec (.seqProgram 0x1FFF 0x00) (atPhase .pg4 (flash cfgA true [])))
    (fun t => t.busTrace == [.w 0x1FFF 0x00] && t.fce.phase == .pl1 && t.fce.paddr == 0x1FFF && t.fce.exp == 0x00) = true := by
  decide +kernel
/-- E1, sixth store. -/
theorem test_erase_last : nextHas (exec (.seqBlockErase 0x1000) (atPhase .er6 (flash cfgA true [])))
    (fun t => t.busTrace == [.w 0x1000 0x30] && t.fce.phase == .dq3 && t.fce.exp == 0xFF) = true := by decide +kernel

/-- A program at 0x1000 of 0x12 with completion detection at its load number `n + 1`. -/
def polling (n : Nat) (answers : List Byte) : State :=
  { flash cfgA true answers with
    fce := { Fce.reset with
      idValid := true, phase := .pl1, op := 0x03, addr := 0x1000, val := 0x12, paddr := 0x1000, exp := 0x12, pcnt := n } }

/-- An erase of block 1 in the erase-started spin, load number `n + 1`. -/
def spinning (n : Nat) (answers : List Byte) : State :=
  { flash cfgA true answers with
    fce := { Fce.reset with
      idValid := true, phase := .dq3, op := 0x02, blk := 1, paddr := 0x1000, exp := 0xFF, pcnt := n } }

/-- V5 and V6, fourth load: the bound, but bit 5 first. V7: bit 7 before bit 5. -/
theorem test_poll_order :
    nextHas (fceStep (polling 3 [0x80])) (fun t => t.fce.phase == .rs1 && t.fce.res == .timeout) = true ∧
    nextHas (fceStep (polling 3 [0xA0])) (fun t => t.fce.phase == .pl2) = true ∧
    nextHas (fceStep (polling 0 [0x32])) (fun t => t.fce.phase == .idle && t.fce.result == .ok) = true := by decide +kernel
/-- V2 and V3, the re-read. -/
theorem test_poll_again :
    nextHas (fceStep (atPhase .pl2 (polling 1 [0xA0]))) (fun t => t.fce.res == .programFailed && t.fce.s2 == 0xA0) = true ∧
    nextHas (fceStep (atPhase .pl2 (polling 1 [0x12]))) (fun t => t.fce.result == .ok && t.fce.done) = true := by
  decide +kernel
/-- E2 and E3, third load: bit 3 before the bound. -/
theorem test_spin_bound :
    nextHas (fceStep (spinning 2 [0x08])) (fun t => t.fce.phase == .pl1 && t.fce.pcnt == 0) = true ∧
    nextHas (fceStep (spinning 2 [0x00])) (fun t => t.fce.phase == .rs1 && t.fce.res == .timeout) = true := by decide +kernel
/-- I1 and I2, the second identity load. -/
theorem test_identity_pair :
    nextHas (fceStep { flash cfgA false [0xAB] with fce := { Fce.reset with phase := .idr2, op := 0x01, idMfr := 0x01 } })
      (fun t => t.fce.idValid && t.fce.res == .ok && t.fce.phase == .rs1) = true ∧
    nextHas (fceStep { flash cfgA true [0xAB] with fce := { Fce.reset with phase := .idr2, op := 0x01, idMfr := 0xC2, idValid := true } })
      (fun t => !t.fce.idValid && t.fce.res == .identityMismatch) = true := by decide +kernel

/-! ### Single steps: bodies (95_test_vectors.md section 4) -/

/-- U1, the last `OutSet`. -/
theorem test_sout_last_line :
    nextHas (exec .soutBus { seqAt cfgA .soutBus .soutSet [] with seq := { Seq.reset with cur := 1, pos := .soutSet, i := 7, pass := 1 } })
      (fun t => t.out == 0x80 && t.seq.pos == .soutWait) = true := by decide +kernel
/-- W3: a flag set before is consumed at once; W1: a clear one holds SEQ. -/
theorem test_wait_tick :
    nextHas (exec .plisRegisters { seqAt cfgA .plisRegisters .plisWait [] with cycleFlag := true })
      (fun t => !t.cycleFlag && t.ticksConsumed == 1 && t.seq.pos == .plisVersion) = true ∧
    exec .plisRegisters (seqAt cfgA .plisRegisters .plisWait []) = .next (seqAt cfgA .plisRegisters .plisWait []) :=
  ⟨by decide +kernel, rfl⟩
/-- S5: 0x40 written, 0x00 read back. -/
theorem test_plis_walking_bit :
    nextHas (exec .plisRegisters { seqAt cfgA .plisRegisters .plisExtRead [0x00] with
        seq := { Seq.reset with cur := 2, pos := .plisExtRead, i := 6, p := 0x40 } })
      (fun t => t.seq.mask == 0x02 && t.seq.i == 7 && t.seq.pos == .plisExtWrite) = true := by decide +kernel
/-- D3 at `v = 1`, D4: the high nibble is not compared. -/
theorem test_dataBus_paired :
    nextHas (exec .dataBus { seqAt cfgA .dataBus .dbReadPaired [0x01] with
        seq := { Seq.reset with cur := 3, pos := .dbReadPaired, v := 1 } }) (fun t => t.seq.mask == 0x02) = true ∧
    nextHas (exec .dataBus { seqAt cfgA .dataBus .dbReadPaired [0xF8] with
        seq := { Seq.reset with cur := 3, pos := .dbReadPaired, v := 1 } }) (fun t => t.seq.mask == 0x00) = true := by
  decide +kernel
/-- D2: after 254 the body ends, 255 is not written. -/
theorem test_dataBus_last : nextHas (exec .dataBus { seqAt cfgA .dataBus .dbWdt [] with
      seq := { Seq.reset with cur := 3, pos := .dbWdt, v := 254 } })
    (fun t => t.seq.pos == .dbDisable) = true := by decide +kernel
/-- G1 in place: the first byte of block 1 is `crc8[1]`, requested at offset 0x800. -/
theorem test_fram_first_byte : nextHas (exec .fram { seqAt cfgB .fram .frProgram [] with
      fce := { Fce.reset with idValid := true }
      seq := { Seq.reset with cur := 4, pos := .frProgram, b := 1, g := 1 } })
    (fun t => t.fce.phase == .pg1 && t.fce.addr == 0x800 && t.fce.val == 0x06 && t.seq.g == 0x06) = true := by decide +kernel
/-- The wrong device: bit 3, straight to the closing of the window (R162). -/
theorem test_fram_wrong_device : nextHas (exec .fram { seqAt cfgB .fram .frIdentifyDone [] with
      fce := { Fce.reset with done := true, result := .identityMismatch } })
    (fun t => t.seq.mask == 0x08 && t.seq.pos == .frDisable) = true := by decide +kernel
/-- U4: the immediate read of cell 1, stuck at 0. -/
theorem test_twoRam_stuck_cell : nextHas (exec .twoRam { seqAt cfgB .twoRam .trImmRead [0x00] with
      seq := { Seq.reset with cur := 5, pos := .trImmRead, k := 1, g := 0x06 } })
    (fun t => t.seq.mask == 0x01 && t.periphTrace == [.ramRead 1 0x00]) = true := by decide +kernel
/-- U2, the last tick. -/
theorem test_extBus_ends : nextHas (exec .extBus { seqAt cfgA .extBus .ebWait [] with
      cycleFlag := true, seq := { Seq.reset with cur := 6, pos := .ebWait, k := 2 } })
    (fun t => t.seq.pos == .ret .noError) = true := by decide +kernel
/-- S2, the `OutSet` of the `Error` body. -/
theorem test_error_shows_mask : nextHas (exec .testError { seqAt cfgA .error (.showSet .noError) [] with
      seq := { Seq.reset with cur := 0, pos := .showSet .noError, mask := 0x04 } })
    (fun t => t.out == 0x04 && t.seq.pos == .showWait .noError) = true := by decide +kernel
/-- R108. -/
theorem test_reserved_code : exec .reservedTestId State.reset = .fault .reservedTestId := rfl
/-- O1 to O5. -/
theorem test_output_calls :
    OutCall.apply 0x5A (.set 0x81) = 0x81 ∧ OutCall.apply 0x50 (.setMask 0x0F) = 0x5F ∧
    OutCall.apply 0x5F (.clrMask 0x0C) = 0x53 ∧ OutCall.apply 0x53 (.tglMask 0xFF) = 0xAC ∧
    OutCall.apply 0xAC (.clrMask 0x00) = 0xAC := by decide
/-- G1. -/
theorem test_generator :
    (List.range 4).map (generated cfgB.toParams 0) = [0x01, 0x06, 0x1F, 0x9C] ∧
    (List.range 4).map (generated cfgB.toParams 1) = [0x06, 0x1F, 0x9C, 0x0D] := by decide +kernel
/-- R77, R78 on the reference device: vector F1's first load. -/
theorem test_refDev_failing_erase :
    let r := RefDev.startErase 0 (RefDev.fresh 0x01 0xAB [] [⟨0, 0, 0, 1, true⟩])
    (r.load cfgA.toParams 0).1 = 0x08 ∧ ((r.load cfgA.toParams 0).2.load cfgA.toParams 0).1 = 0x28 := by decide +kernel

/-! ### Witnesses: states and operands that meet the hypotheses of the statements -/

/-- SEQ's invariant for a state at the start of a dispatch of `Fram`. -/
def atFram : State := seqAt cfgB .fram .dispatch []

theorem atFram_seqInv : SeqInv atFram := And.intro
  ⟨.fram, rfl, (by intro x h; cases h), trivial, trivial, by intro _ h; exact absurd rfl h⟩
  ⟨by (intro h; cases h), rfl, by intro h; cases h⟩

/-- The widths of a state whose address registers are in the window. -/
theorem widths_intro {c : Params} {f : Fce} (h1 : f.addr < 2 ^ c.addrW) (h2 : f.paddr < 2 ^ c.addrW)
    (h3 : f.pcnt ≤ max c.pollBound c.dq3Bound) : f.widthsOk c := ⟨h1, h2, h3⟩

theorem atFram_fceInv : FceInv atFram := And.intro trivial ⟨by (intro h; cases h),
  widths_intro (by decide +kernel) (by decide +kernel) (by decide +kernel)⟩

/-- `Fram` about to request `IDENTIFY`. -/
def askingIdentify : State := seqAt cfgB .fram .frIdentify []

theorem askingIdentify_seqInv : SeqInv askingIdentify := And.intro
  ⟨.fram, rfl, (by intro x h; cases h; rfl), trivial, trivial, by intro _ _; decide⟩ ⟨fun _ => rfl, rfl, by intro h; cases h⟩

/-- `Fram` waiting for the `PROGRAM_BYTE` that FCE runs. -/
def waitingProgram : State :=
  { seqAt cfgB .fram .frProgramDone [] with
    dev := .oracle [0x80]
    fce := { Fce.reset with
      idValid := true, phase := .pl1, op := 0x03, addr := 0x801, val := 0x1F, paddr := 0x801, exp := 0x1F, pcnt := 3 }
    seq := { Seq.reset with cur := 4, pos := .frProgramDone, b := 1, k := 1, g := 0x1F } }

theorem waitingProgram_invariants : FceInv waitingProgram ∧ SeqInv waitingProgram ∧ MemoryInv waitingProgram := by
  refine ⟨And.intro (And.intro (Or.inr (And.intro (And.intro rfl (Or.inl ⟨rfl, rfl, by decide +kernel⟩)) rfl))
      (by decide +kernel)) ⟨fun _ => rfl, widths_intro (by decide +kernel) (by decide +kernel) (by decide +kernel)⟩, ?_, ?_⟩
  · exact And.intro ⟨.fram, rfl, (by intro x h; cases h; rfl), And.intro (by decide +kernel) (by decide +kernel),
      trivial, by intro _ _; decide⟩ ⟨fun _ => rfl, rfl, fun _ => .inl rfl⟩
  · exact And.intro (by decide) (And.intro trivial trivial)

theorem witness_encodings :
    decode (.cyc [⟨0xAAA, 0xAA⟩, ⟨0x555, 0x55⟩, ⟨0xAAA, 0xA0⟩, ⟨0xFFF, 0xFF⟩]) = .ok (.seqProgram 0xFFF 0xFF) ∧
    decode (.req 0xFF (ops 1 2 3 4)) = .ok (.reservedRequest 0xFF (ops 1 2 3 4)) ∧ decode (.tid 7) = .ok .reservedTestId :=
  ⟨rfl, rfl, rfl⟩

/-- StepRunsTheDecodedInstruction, each clause. -/
theorem witness_stepRuns :
    (let s : State := { atFram with agenda := [.core] }
     turn s = .core ∧ s.fce.phase = .idle ∧ decode (.tid s.seq.cur) = .ok .fram) ∧
    (let s : State := { atFram with agenda := [.bench], bench := [.start 0x06 (ops 0 0 0 0)] }
     turn s = .bench ∧ decode (.req 0x06 (ops 0 0 0 0)) = .ok (.reset (ops 0 0 0 0))) ∧
    (let s := atPhase .er6 { spinning 0 [] with agenda := [.core] }
     turn s = .core ∧ s.fce.phase ≠ .idle ∧ phaseCommand s = some (.seqBlockErase 0x1000)) ∧
    (let s : State := { spinning 0 [] with agenda := [.core] }
     turn s = .core ∧ s.fce.phase ≠ .idle ∧ phaseCommand s = none) ∧
    (let s : State := { atFram with agenda := [.bench] }; turn s = .bench ∧ s.bench = []) := by decide +kernel

/-- OnlyWaitTickClearsTheFlag, WaitTickTestsAndClears: at a `WaitTick`, and at no `WaitTick`. -/
theorem witness_waitTick :
    (let s : State := { seqAt cfgA .soutBus .soutWait [] with cycleFlag := true }
     s.seq.pos.awaitsTick = true ∧ nextHas (agentStep .core s) (fun t => !t.cycleFlag) = true) ∧
    Seq.ok cfgA.toParams .soutBus (seqAt cfgA .soutBus .soutWait []).seq ∧
    (seqAt cfgA .soutBus .soutWait []).cycleFlag = false ∧
    (let s := seqAt cfgA .soutBus .soutSet []; s.seq.pos.awaitsTick = false ∧ runs (exec (TestId.instr .soutBus) s) = true) :=
  ⟨by decide +kernel, ⟨rfl, (by intro x h; cases h; rfl), And.intro (by decide) (by decide), trivial,
    by intro h; cases h⟩, rfl, by decide +kernel⟩

/-- AcceptanceTable, RequestFrame, ReservedOpcodeEndsAtOnce, IdentifyOperation, ResetOperation: an idle FCE, a busy one,
the boundary opcodes. -/
theorem witness_requests :
    (flash cfgA true []).fce.phase = .idle ∧ (polling 0 []).fce.phase ≠ .idle ∧
    (Instr.read (ops 0 0 0 0)).isRequest = true ∧ runs (exec (.read (ops 0 0 0 0)) (flash cfgA true [])) = true ∧
    (0x07 : Byte).toNat ≥ 0x07 := by decide +kernel

/-- ValidationErrorsTouchNoHardware and the operations: each premise at its boundary. -/
theorem witness_validation :
    (cfgA.numBlocks ≤ (2 : Byte).toNat ∧ (1 : Byte).toNat < cfgA.numBlocks) ∧
    (cfgA.flashSize ≤ 0x2000 ∧ 0x1FFF < cfgA.flashSize) ∧
    (cfgA.bufMax < (17 : BitVec 16).toNat ∧ (16 : BitVec 16).toNat ≤ cfgA.bufMax) ∧
    (cfgA.flashSize < 0x1FFF + (2 : BitVec 16).toNat ∧ 0x1FFE + (2 : BitVec 16).toNat ≤ cfgA.flashSize) ∧
    (flash cfgA false []).fce.idValid = false ∧ (flash cfgA true []).fce.idValid = true := by decide +kernel

/-- EveryOperationEnds, ExitPathRestoresReadMode: `RESET` completes with three stores. -/
theorem witness_completes : ∃ events u,
    Completes (.reset (ops 0 0 0 0)) (flash cfgA false []) events u ∧ events ≠ [] :=
  ⟨[.w 0xAAA 0xAA, .w 0x555 0x55, .w 0xAAA 0xF0], _, ⟨_, rfl, rfl, ⟨_, _, _, rfl⟩, rfl, rfl⟩, by decide⟩

/-- WireCommandIssuesItsEncoding, WireCommandCycle: each command at its first phase, operands at the edge of the window; an
offset outside it at an earlier cycle. -/
theorem witness_wire :
    runs (exec (.seqProgram 0x2000 0) (atPhase .pg1 (flash cfgA true []))) = true ∧
    (flash cfgA true []).cfg.flashSize = 0x1FFF + 1 ∧ firstPhase (.seqProgram 0x1FFF 0) = .pg1 ∧
    firstPhase (.seqBlockErase 0x1000) = .er1 ∧ firstPhase .seqAutoselect = .as1 ∧ firstPhase .seqReset = .rs1 ∧
    (Instr.seqProgram 0x1FFF 0).isWire = true := by decide +kernel

/-- StoreOutsideTheWindowFaults, each clause, and the offset just inside, which runs. -/
theorem witness_outside :
    (let s := atPhase .pg4 (flash cfgA true []); s.fce.phase = .pg4 ∧ s.cfg.flashSize ≤ 0x2000 ∧
      runs (exec (.seqProgram 0x1FFF 0) s) = true) ∧
    (let s := atPhase .er6 (flash cfgA true []); s.fce.phase = .er6 ∧ s.cfg.flashSize ≤ 0x2000 ∧
      runs (exec (.seqBlockErase 0x1FFF) s) = true) := by decide +kernel

/-- PhaseTable, CompletionDetection, StepKeepsFceInvariant, NoDestructiveCycleWithoutIdentity: completion detection at
its first and its last load. -/
theorem witness_polling (n : Nat) (h : n < 4) (answers : List Byte) :
    FceInv (polling n answers) ∧ (polling n answers).fce.phase = .pl1 ∧ (polling 0 answers).fce.pcnt = 0 :=
  ⟨And.intro (And.intro (Or.inr (And.intro (And.intro rfl (Or.inl ⟨rfl, rfl, (by decide : 0x1000 < 0x2000)⟩)) rfl)) h)
    ⟨fun _ => rfl, widths_intro (by decide : 0x1000 < 2 ^ 13) (by decide : 0x1000 < 2 ^ 13) (Nat.le_of_lt h)⟩, rfl, rfl⟩

/-- EraseStartedSpin. -/
theorem witness_spinning (n : Nat) (h : n < 3) (answers : List Byte) :
    FceInv (spinning n answers) ∧ (spinning n answers).fce.phase = .dq3 ∧ (spinning 0 answers).fce.pcnt = 0 :=
  ⟨And.intro (And.intro ⟨rfl, (by decide : 1 < 2), rfl⟩ ⟨rfl, rfl, h⟩)
    ⟨fun _ => rfl, widths_intro (by decide : 0 < 2 ^ 13) (by decide : 0x1000 < 2 ^ 13)
      (Nat.le_trans (Nat.le_of_lt h) (by decide : 3 ≤ 4))⟩, rfl, rfl⟩

/-- FceStepFrame: `result` and `done` change where a byte program succeeds, `fail_idx` where a buffer's element fails, and in
their other rows neither. -/
theorem witness_resultRows :
    nextHas (fceStep (polling 0 [0x12])) (fun t => t.fce.done && !(polling 0 [0x12]).fce.done) = true ∧
    (let s : State := { polling 3 [0x80] with fce := { (polling 3 [0x80]).fce with op := 0x04, idx := 1, len := 2 } }
     nextHas (fceStep s) (fun t => t.fce.failIdx == 1 && !t.fce.done) = true ∧ s.fce.failIdx = 0) ∧
    nextHas (fceStep (spinning 0 [0x80])) (fun t => !t.fce.done && t.fce.failIdx == 0) = true := by decide +kernel

/-- FceStepFrame, OtherStatusBitsAreIgnored: a load in each of the three rows; two answers that agree on bits 7, 5, 3. -/
theorem witness_status_bits :
    (let d : Byte := 0x80; let d' : Byte := 0xD7
     d ≠ d' ∧ d.getLsbD 7 = d'.getLsbD 7 ∧ d.getLsbD 5 = d'.getLsbD 5 ∧ d.getLsbD 3 = d'.getLsbD 3) ∧
    runs (fceStep (polling 0 [0x80])) = true ∧ runs (fceStep (atPhase .pl2 (polling 1 [0x80]))) = true ∧
    runs (fceStep (spinning 0 [0x80])) = true ∧ (polling 0 [0x80]).winEn = true := by decide +kernel

/-- NoDestructiveCycleWithoutIdentity, both ways out: a program's data store, and a store of the reset sequence with no
identity. -/
theorem witness_stores :
    (let s := atPhase .pg4 { polling 0 [] with agenda := [.core] }
     nextHas (step s) (fun t => t.busTrace == s.busTrace ++ [.w 0x1000 0x12]) = true ∧ s.fce.idValid = true) ∧
    (let s := atPhase .rs3 { flash cfgA false [] with agenda := [.core], fce := { Fce.reset with rsLeft := 1 } }
     nextHas (step s) (fun t => t.busTrace == s.busTrace ++ [.w 0xAAA 0xF0]) = true ∧ s.fce.idValid = false) ∧
    FceInv (atPhase .rs3 { flash cfgA false [] with agenda := [.core], fce := { Fce.reset with rsLeft := 1 } }) :=
  ⟨by decide +kernel, by decide +kernel, And.intro (.inl rfl)
    ⟨fun _ => rfl, widths_intro (by decide +kernel) (by decide +kernel) (by decide +kernel)⟩⟩

/-- IdValidRecordsTheIdentity: row IDR2 and the reset line. -/
theorem witness_idValid :
    (let s : State := { flash cfgA false [0xAB] with
       agenda := [.core], fce := { Fce.reset with phase := .idr2, op := 0x01, idMfr := 0x01 } }
     nextHas (step s) (fun t => t.fce.idValid) = true) ∧
    nextHas (step { flash cfgA true [] with agenda := [.resetLine] }) (fun t => !t.fce.idValid) = true := by decide +kernel

/-- BufferIsTheRequesters, each clause at the end of `buf`. -/
theorem witness_buffer :
    nextHas (agentStep .bench { flash cfgA true [] with bench := [.bufWrite 15 0x5A] }) (fun t => bufByte t 15 == 0x5A)
      = true ∧
    (15 < cfgA.bufMax ∧ cfgA.bufMax ≤ 16) ∧ bufByte (flash cfgA true []) 15 ≠ 0x5A := by decide +kernel

/-- TransitionTable, CurIsWrittenByTheDispatcher, BodyStepFrame: a return, both outcomes, that changes `cur`; an entry. -/
theorem witness_return :
    nextHas (exec (TestId.instr .error) (seqAt cfgA .error (.ret .error) [])) (fun t => t.seq.cur == 1) = true ∧
    nextHas (step { seqAt cfgA .soutBus (.ret .noError) [] with agenda := [.core] }) (fun t => t.seq.cur == 2) = true ∧
    (seqAt cfgA .soutBus .dispatch []).seq.pos = .dispatch := by decide +kernel

/-- SeqIsHeldUntilDone, both clauses. -/
theorem witness_held :
    (waitingProgram.seq.pos.awaitsDone = true ∧ waitingProgram.fce.done = false) ∧
    (waitingProgram.fce.phase ≠ .idle ∧ runs (agentStep .core waitingProgram) = true) := by decide +kernel

/-- ReservedTestIdFaults: steps from a code that is neither 0 nor 7. -/
theorem witness_codes : atFram.seq.cur ≠ 7 ∧ atFram.seq.cur ≠ 0 ∧
    runs (step { atFram with agenda := [.core] }) = true := by decide +kernel

/-- PERIPH as the well-behaved cells. -/
def withCells (m : Memory) (s : State) : State := { s with periph := .cells m }

/-- PeriphStoreLands, the loads: a register that reads back, and the paired register, which reads the permutation. -/
theorem witness_periphLoad :
    (let s := withCells [(7, 0x0B)] (seqAt cfgA .dataBus .dbReadPaired [])
     s.seq.pos.owner = some .dataBus ∧ s.periph = .cells [(7, 0x0B)] ∧ periphLoad s 0x0D = some (8, .read 8 0x0D) ∧
     s.cfg.dbRdReg = 8 ∧ nextHas (exec .dataBus s) (fun t => t.periphTrace == [.read 8 0x0D]) = true) ∧
    (let s := withCells [(0x100, 0x06)] (seqAt cfgB .twoRam .trImmRead [])
     periphLoad s 0x06 = some (0x100, .ramRead 0 0x06) ∧
     nextHas (exec .twoRam s) (fun t => t.periphTrace == [.ramRead 0 0x06]) = true) := by decide +kernel

/-- PeriphStoreLands: a store of each kind that computes its cell. -/
theorem witness_periphStore :
    (let s := seqAt cfgA .plisRegisters .plisExtWrite []; s.seq.pos.owner = some .plisRegisters ∧ periphStore s = some (1, 1)) ∧
    (let s := seqAt cfgA .plisRegisters .plisAliasWrite []; periphStore s = some (3, 0x11)) ∧
    (let s := seqAt cfgA .dataBus .dbWrite []; s.seq.pos.owner = some .dataBus ∧ periphStore s = some (7, 0)) ∧
    (let s := seqAt cfgB .twoRam .trImmWrite []; s.seq.pos.owner = some .twoRam ∧ periphStore s = some (0x100, 1)) := by
  decide +kernel

/-- SoutBusBody, ExtBusBody, ShowErrorDisplaysTheMask, the checking bodies: a state at each dispatch, and a scripted
PERIPH of the length the statement asks for. -/
theorem witness_dispatch :
    (∀ self ∈ [TestId.error, .soutBus, .plisRegisters, .dataBus, .fram, .twoRam, .extBus],
      let s := seqAt cfgB self .dispatch []
      s.seq.cur = self.code ∧ s.seq.pos = .dispatch ∧ s.fce.phase = .idle) ∧
    (let s := seqAt cfgA .plisRegisters (.showSet .error) []
     s.seq.cur = TestId.code .plisRegisters ∧ s.fce.phase = .idle ∧ s.seq.pos = .showSet .error) ∧
    ((List.range 4).flatMap (fun _ => (List.range 21).map fun _ => (0 : Byte)) ++ []).length = 84 := by decide +kernel

/-- FramBody: each block clause, at the first and the last block, with and without blocks that have no byte. -/
theorem witness_framBlocks :
    (0 < blockSize cfgB.toParams 0 ∧ cfgB.numBlocks = 2) ∧
    (blockSize cfgEmptyFirst.toParams 0 = 0 ∧ 0 < blockSize cfgEmptyFirst.toParams 1) ∧
    (∀ y < cfgEmpty.numBlocks, blockSize cfgEmpty.toParams y = 0) ∧
    (∀ p ∈ [SeqPos.frEnable, .frIdentify, .frErase, .frProgram, .frRead, .frBatchReset, .frVerify, .frEraseWdt, .frWriteWdt,
        .frVerifyWdt, .frDisable],
      (seqAt cfgB .fram p []).seq.pos = p ∧ (seqAt cfgB .fram p []).fce.phase = .idle) ∧
    (∀ p ∈ [SeqPos.frIdentifyDone, .frEraseDone, .frProgramDone, .frReadDone, .frBatchResetDone, .frVerifyDone],
      let s : State := { seqAt cfgB .fram p [] with fce := { Fce.reset with done := true } }
      s.seq.pos = p ∧ s.fce.done = true) := by decide +kernel

/-- FramRefusesTheWrongDevice. -/
theorem witness_wrongDevice :
    (let s : State := { atFram with dev := .oracle [0xC2, 0xAB] }
     s.dev = .oracle (0xC2 :: 0xAB :: []) ∧ ¬ ((0xC2 : Byte) = s.cfg.manufacturer ∧ (0xAB : Byte) = s.cfg.deviceCode)) := by
  decide +kernel

/-- OutcomeIsTheMask: a mask that is not 0 on its way to the display and at its return; a body that checks nothing. -/
theorem witness_outcome :
    Seq.ok cfgA.toParams .dataBus { Seq.reset with cur := 3, pos := .ret .error, mask := 0x02 } ∧
    Seq.ok cfgA.toParams .dataBus { Seq.reset with cur := 3, pos := .showSet .error, mask := 0x02 } ∧
    Seq.ok cfgA.toParams .dataBus { Seq.reset with cur := 3, pos := .dbDisable, mask := 0x02 } ∧
    Seq.ok cfgA.toParams .soutBus { Seq.reset with cur := 1, pos := .ret .noError } :=
  ⟨⟨rfl, (by intro x h; cases h), trivial, (by show _ ↔ _; decide), by intro _ _; decide⟩,
   ⟨rfl, (by intro x h; cases h), trivial, Or.inl ⟨rfl, rfl, by decide⟩, by intro _ _; decide⟩,
   ⟨rfl, (by intro x h; cases h; rfl), trivial, trivial, by intro _ _; decide⟩,
   ⟨rfl, (by intro x h; cases h), trivial, rfl, by intro h; cases h⟩⟩

/-- WhoEnablesTheWindow, the clauses on the enables: each writer of the two. -/
theorem witness_enables :
    nextHas (agentStep .bench { State.reset with bench := [.openWindow] }) (fun t => t.winEn) = true ∧
    nextHas (agentStep .core (seqAt cfgB .fram .frEnable [])) (fun t => t.winEn) = true ∧
    nextHas (agentStep .core (seqAt cfgB .fram .frDisable [])) (fun t => !t.winEn) = true ∧
    nextHas (agentStep .resetLine (seqAt cfgB .fram .frDisable [])) (fun t => !t.winEn) = true ∧
    nextHas (agentStep .core (seqAt cfgB .dataBus .dbEnable [])) (fun t => t.extEn) = true := by decide +kernel

/-- WhoEnablesTheWindow, the clause on SEQ's requests. -/
theorem witness_request_of_fram :
    SeqInv askingIdentify ∧ askingIdentify.fce.phase = .idle ∧
    nextHas (agentStep .core askingIdentify) (fun t => decide (t.fce ≠ askingIdentify.fce)) = true :=
  ⟨askingIdentify_seqInv, rfl, by decide +kernel⟩

/-- The invariants' statements and EveryStepHasANextState: a state in mid-operation that steps. -/
theorem witness_invariants :
    FceInv waitingProgram ∧ SeqInv waitingProgram ∧ MemoryInv waitingProgram ∧
    runs (step { waitingProgram with agenda := [.core] }) = true ∧
    (∀ i d rest, waitingProgram.bench = .bufWrite i d :: rest → i < waitingProgram.cfg.bufMax) ∧
    turn { waitingProgram with agenda := [.core] } ≠ .resetLine :=
  ⟨waitingProgram_invariants.1, waitingProgram_invariants.2.1, waitingProgram_invariants.2.2, by decide +kernel,
    (by intro i d rest h; cases h), by decide⟩

/-- ErrorIsNeverDispatched: codes 4 and 6. -/
theorem witness_extBus : SeqInv (seqAt cfgA .extBus .dispatch []) ∧ (seqAt cfgA .extBus .dispatch []).seq.cur = 6 :=
  ⟨And.intro ⟨.extBus, rfl, (by intro x h; cases h), trivial, trivial, by intro _ h; exact absurd rfl h⟩
    ⟨(fun h => by cases h), rfl, by intro h; cases h⟩, rfl⟩

/-- A healthy reference device, every count at its largest. -/
def healthyDev : RefDev := RefDev.fresh 0x01 0xAB [(0x1001, 0x0F)] [⟨3, 3, 2, 3, false⟩]

/-- EraseBlockErases, ProgramByteThenReadGivesTheValue, each clause: a state that holds the device, block 1 and the addresses
0x1000 (erased) and 0x1001 (0x0F). -/
theorem witness_healthyFlash :
    let s : State := { flash cfgA true [] with dev := .refDev healthyDev }
    s.fce.phase = .idle ∧ s.winEn = true ∧ s.fce.idValid = true ∧ s.dev = .refDev healthyDev ∧
    healthyDev.mode = .read ∧ healthyDev.cpos = .p0 ∧
    ((1 : Byte).toNat < s.cfg.numBlocks ∧ 0 < blockSize s.cfg.toParams 1 ∧ healthyDev.currentDraws.eraseBad = false ∧
      healthyDev.currentDraws.dq3Reads < s.cfg.dq3Bound ∧ healthyDev.currentDraws.eraseReads < s.cfg.pollBound) ∧
    (0x1001 < s.cfg.flashSize ∧ healthyDev.currentDraws.progReads < s.cfg.pollBound ∧
      healthyDev.currentDraws.dq5Reads < s.cfg.pollBound ∧
      healthyDev.arr.read 0x1000 &&& 0x12 = 0x12 ∧ ¬ healthyDev.arr.read 0x1001 &&& 0x34 = 0x34) := by decide +kernel

/-- FramPassesOnAHealthyBoard: a state at the dispatch of `Fram` that holds a device with the right identity. -/
theorem witness_healthyBoard :
    let r := RefDev.fresh 0x01 0xAB [] []
    let s : State := { atFram with dev := .refDev r }
    (s.seq.cur = TestId.code .fram ∧ s.seq.pos = .dispatch ∧ s.fce.phase = .idle) ∧ s.dev = .refDev r ∧
    r.mode = .read ∧ r.cpos = .p0 ∧ r.opDraws = [] ∧ r.simMfr = s.cfg.manufacturer ∧ r.simDev = s.cfg.deviceCode ∧
    ∀ b < s.cfg.numBlocks, 0 < blockSize s.cfg.toParams b := by decide +kernel

/-- DefaultPermutation: a configuration that holds the defaults, and the two ways out of the compare. -/
theorem witness_defaults :
    cfgA.dbPerm = defaultDbPermTable ∧ cfgA.dbCmpMask = 0x0F ∧
    dbPairedDiffers cfgA.toParams 0x0B 0xFD = false ∧ dbPairedDiffers cfgA.toParams 0x0B 0x0B = true := by decide +kernel

/-- The reference-device statements: a healthy device, every count at its largest. -/
theorem witness_refDev :
    (let r := RefDev.fresh 0x01 0xAB [(0x1001, 0x0F)] [⟨3, 3, 2, 3, false⟩]
     r.mode = .read ∧ r.cpos = .p0 ∧ r.currentDraws.eraseBad = false ∧ r.currentDraws.dq3Reads < cfgA.dq3Bound ∧
     r.currentDraws.eraseReads < cfgA.pollBound ∧ r.currentDraws.progReads < cfgA.pollBound ∧
     r.currentDraws.dq5Reads < cfgA.pollBound ∧ cfgA.idMfrOffset ≠ cfgA.idDevOffset ∧
     Contract.programmable (r.arr.read 0x1000) 0x12 ∧ ¬ Contract.programmable (r.arr.read 0x1001) 0x34) ∧
    (let r := RefDev.fresh 0x01 0xAB [] []
     r.opDraws = [] ∧ r.simMfr = cfgB.manufacturer ∧ r.simDev = cfgB.deviceCode ∧
     ∀ b < cfgB.numBlocks, 0 < blockSize cfgB.toParams b) := by
  simp only [Contract.programmable]; decide +kernel

end Sys2Proof.Tests
end

section
/-! PROOFS. FCE's step from its invariant: one row of the phase table for every phase but `IDLE`. -/

namespace Sys2Proof.Machine

/-- The byte DEV answers in the row FCE stands at. -/
def rowAnswer (s : State) : Byte := devAnswer (rowAddress s.cfg.toParams s.fce) s

/-- FCE's step in `s` is the row of R123 its phase names: one bus cycle, the row's writes, its next phase. -/
def RunsItsRow (s : State) : Prop :=
  ∃ e t, rowEvent s.cfg.toParams s.fce (rowAnswer s) = some e ∧ fceStep s = .next t ∧ FceOnly s [e] t ∧
    t.fce = rowNext s.cfg.toParams s.fce (rowAnswer s)

section
variable {s : State}

/-- A step that stores and writes registers is its row, where the table has that store and those registers. -/
theorem RunsItsRow.of_store {a : Nat} {d : Byte} {g : Fce → Fce}
    (hstep : fceStep s = .next ((busWrite a d s).onFce g))
    (hevent : rowEvent s.cfg.toParams s.fce (rowAnswer s) = some (.w a d))
    (hnext : g s.fce = rowNext s.cfg.toParams s.fce (rowAnswer s)) : RunsItsRow s :=
  have ⟨honly, hfce⟩ := storeRow s a d g
  ⟨_, _, hevent, hstep, honly, hfce.trans hnext⟩

/-- A step that loads and writes registers is its row, where the table has that load and those registers. -/
theorem RunsItsRow.of_load {a : Nat} {g : Fce → Fce}
    (hstep : fceStep s = .next ((busRead a s).onFce g))
    (hevent : rowEvent s.cfg.toParams s.fce (rowAnswer s) = some (.r a (devAnswer a s)))
    (hnext : g s.fce = rowNext s.cfg.toParams s.fce (rowAnswer s)) : RunsItsRow s :=
  have ⟨honly, hfce⟩ := loadRow s a g
  ⟨_, _, hevent, hstep, honly, hfce.trans hnext⟩

/-- The store rows of a wire command that only go on to the next phase. -/
theorem RunsItsRow.of_storeTo {a : Nat} {d : Byte} {p : Phase}
    (hstep : fceStep s = .next (toPhase p (busWrite a d s)))
    (hevent : rowEvent s.cfg.toParams s.fce (rowAnswer s) = some (.w a d))
    (hnext : rowNext s.cfg.toParams s.fce (rowAnswer s) = { s.fce with phase := p }) : RunsItsRow s :=
  .of_store (g := fun f => { f with phase := p }) hstep hevent hnext.symm

/-! ### Store rows -/

/-- Rows AS1 to AS3. -/
theorem autoselect_runsItsRow (hc : phaseCommand s = some .seqAutoselect) : RunsItsRow s := by
  have hstep : fceStep s = execSeqAutoselect s := by simp [fceStep, hc]
  cases hp : s.fce.phase <;> simp only [phaseCommand, hp, reduceCtorEq, Option.some.injEq] at hc <;>
    simp only [execSeqAutoselect, hp] at hstep <;>
    exact .of_storeTo hstep (by simp only [rowEvent, hp]) (by simp only [rowNext, hp])

/-- An update of FCE's registers is known by what it makes of the registers the state holds. -/
theorem State.onFce_congr {s : State} {f g : Fce → Fce} (h : f s.fce = g s.fce) : s.onFce f = s.onFce g := onFce_eq h

/-- The registers after the third store of a reset sequence (row RS3). -/
def Fce.sequenceEnded (f : Fce) : Fce :=
  if f.rsLeft - 1 ≠ 0 then { f with rsLeft := f.rsLeft - 1, phase := .rs1 }
  else { f with rsLeft := f.rsLeft - 1, result := f.res, done := true, phase := .idle }

theorem resetSequenceDone_eq (s : State) : resetSequenceDone s = s.onFce Fce.sequenceEnded := by
  have hlast : resetSequenceDone s = if s.fce.rsLeft - 1 ≠ 0
      then s.onFce fun f => { f with rsLeft := f.rsLeft - 1, phase := .rs1 }
      else s.onFce fun f => { f with rsLeft := f.rsLeft - 1, result := f.res, done := true, phase := .idle } := by
    simp [resetSequenceDone]
  rw [hlast]
  split_ifs with hleft <;> refine State.onFce_congr ?_ <;> simp_all [Fce.sequenceEnded]

/-- Rows RS1 to RS3. -/
theorem reset_runsItsRow (hc : phaseCommand s = some .seqReset) : RunsItsRow s := by
  have hstep : fceStep s = execSeqReset s := by simp [fceStep, hc]
  cases hp : s.fce.phase <;> simp only [phaseCommand, hp, reduceCtorEq, Option.some.injEq] at hc <;>
    simp only [execSeqReset, hp] at hstep
  case rs1 | rs2 => exact .of_storeTo hstep (by simp only [rowEvent, hp]) (by simp only [rowNext, hp])
  case rs3 =>
    rw [resetSequenceDone_eq] at hstep
    exact .of_store hstep (by simp only [rowEvent, hp]) (by simp only [rowNext, hp]; rfl)

/-- Rows ER1 to ER6. -/
theorem blockErase_runsItsRow {a : Nat} (hc : phaseCommand s = some (.seqBlockErase a))
    (herasing : s.fce.erasing s.cfg.toParams) : RunsItsRow s := by
  have hstep : fceStep s = execSeqBlockErase a s := by simp [fceStep, hc]
  cases hp : s.fce.phase <;>
    simp only [phaseCommand, hp, reduceCtorEq, Option.some.injEq, Instr.seqBlockErase.injEq] at hc <;>
    simp only [execSeqBlockErase, hp] at hstep
  case er6 =>
    subst hc
    rw [eraseTarget, inWindow_of_lt _ _ (erasing_lt herasing), expect_eq, toPhase_eq, onFce_onFce] at hstep
    exact .of_store hstep (by simp only [rowEvent, hp]) (by simp only [rowNext, hp])
  all_goals exact .of_storeTo hstep (by simp only [rowEvent, hp]) (by simp only [rowNext, hp])

/-- What `PG4` stores and where, read from FCE's registers. -/
theorem programCycle_eq (hprogramming : s.fce.programming s.cfg.toParams) :
    s.fce.programCycle = ⟨programTarget s, programValue s⟩ := by
  obtain ⟨-, ⟨hop, -⟩ | ⟨hop, -⟩⟩ := hprogramming <;>
    simp [Fce.programCycle, programTarget, programValue, hop]

/-- Rows PG1 to PG4. -/
theorem program_runsItsRow {a : Nat} {v : Byte} (hc : phaseCommand s = some (.seqProgram a v))
    (hprogramming : s.fce.programming s.cfg.toParams) : RunsItsRow s := by
  have hstep : fceStep s = execSeqProgram a v s := by simp [fceStep, hc]
  cases hp : s.fce.phase <;>
    simp only [phaseCommand, hp, reduceCtorEq, Option.some.injEq, Instr.seqProgram.injEq] at hc <;>
    simp only [execSeqProgram, hp] at hstep
  case pg4 =>
    obtain ⟨rfl, rfl⟩ := hc
    rw [inWindow_of_lt _ _ (by exact programming_lt hprogramming), expect_eq, toPhase_eq, onFce_onFce] at hstep
    exact .of_store hstep (by simp only [rowEvent, hp, programCycle_eq hprogramming])
      (by simp only [rowNext, hp, programCycle_eq hprogramming])
  all_goals exact .of_storeTo hstep (by simp only [rowEvent, hp]) (by simp only [rowNext, hp])

/-! ### Load rows -/

/-- Row IDR1. -/
theorem idr1_runsItsRow (hp : s.fce.phase = .idr1) : RunsItsRow s := by
  have hstep : fceStep s = .next (loadMfr s) := by simp only [fceStep, phaseCommand, fceLoad, hp]
  rw [loadMfr, toPhase_eq, onFce_onFce] at hstep
  exact .of_load hstep (by simp only [rowEvent, rowAnswer, rowAddress, hp])
    (by simp only [rowNext, rowAnswer, rowAddress, hp])

theorem identityMatches_eq (c : Params) (mfr dev : Byte) :
    identityMatches c mfr dev = decide (mfr = c.manufacturer ∧ dev = c.deviceCode) := by
  simp [identityMatches, Bool.beq_eq_decide_eq]

/-- Row IDR2. -/
theorem idr2_runsItsRow (hp : s.fce.phase = .idr2) : RunsItsRow s := by
  have hstep : fceStep s = .next (loadDev s) := by simp only [fceStep, phaseCommand, fceLoad, hp]
  rw [loadDev, enterReset_eq, onFce_onFce] at hstep
  refine .of_load hstep (by simp only [rowEvent, rowAnswer, rowAddress, hp]) ?_
  by_cases hid : s.fce.idMfr = s.cfg.manufacturer ∧ devAnswer s.cfg.idDevOffset s = s.cfg.deviceCode <;>
    simp [rowNext, rowAnswer, rowAddress, hp, identityMatches_eq, Fce.resetting, hid]

/-- Row RD. -/
theorem rd_runsItsRow (hp : s.fce.phase = .rd) (hwindow : s.fce.addr < s.cfg.flashSize) : RunsItsRow s := by
  have hstep : fceStep s = .next (plainLoad s) := by
    simp only [fceStep, phaseCommand, fceLoad, hp, inWindow_of_lt _ _ hwindow]
  rw [plainLoad, finish_eq, onFce_onFce] at hstep
  exact .of_load hstep (by simp only [rowEvent, rowAnswer, rowAddress, hp])
    (by simp only [rowNext, rowAnswer, rowAddress, hp])

theorem statusLoad_fce (s : State) :
    (statusLoad s).fce = { s.fce with s1 := devAnswer s.fce.paddr s, pcnt := s.fce.pcnt + 1 } := by
  simp [statusLoad]

/-- Row DQ3 of the table, in the words of the model's flags. -/
theorem rowNext_dq3 (c : Params) {f : Fce} (d : Byte) (hp : f.phase = .dq3) :
    rowNext c f d =
      if eraseStarted d then { f with s1 := d, pcnt := 0, phase := .pl1 }
      else if f.pcnt + 1 = c.dq3Bound then Fce.resetting 1 .timeout { f with s1 := d, pcnt := f.pcnt + 1 }
      else { f with s1 := d, pcnt := f.pcnt + 1 } := by
  rw [rowNext, hp]; rfl

/-- Row PL1 of the table, in the words of the model's flags. -/
theorem rowNext_pl1 (c : Params) {f : Fce} (d : Byte) (hp : f.phase = .pl1) :
    rowNext c f d =
      if statusDone f.exp d then pollExit { f with s1 := d, pcnt := f.pcnt + 1 } .success
      else if timingExceeded d then { f with s1 := d, pcnt := f.pcnt + 1, phase := .pl2 }
      else if f.pcnt + 1 = c.pollBound then pollExit { f with s1 := d, pcnt := f.pcnt + 1 } .timeout
      else { f with s1 := d, pcnt := f.pcnt + 1 } := by
  have hdone : statusDone f.exp d = true ↔ d.getLsbD 7 = f.exp.getLsbD 7 := beq_iff_eq
  simp only [hdone]
  rw [rowNext, hp]; rfl

/-- Row PL2 of the table, in the words of the model's flags. -/
theorem rowNext_pl2 (c : Params) {f : Fce} (d : Byte) (hp : f.phase = .pl2) :
    rowNext c f d =
      if statusDone f.exp d then pollExit { f with s2 := d } .success else pollExit { f with s2 := d } .failure := by
  have hdone : statusDone f.exp d = true ↔ d.getLsbD 7 = f.exp.getLsbD 7 := beq_iff_eq
  simp only [hdone]
  rw [rowNext, hp]

/-- Row DQ3. -/
theorem dq3_runsItsRow (hp : s.fce.phase = .dq3) (hwindow : s.fce.paddr < s.cfg.flashSize) : RunsItsRow s := by
  have hstep : fceStep s = .next (spinEraseStarted s) := by
    simp only [fceStep, phaseCommand, fceLoad, hp, inWindow_of_lt _ _ hwindow]
  have hspin : spinEraseStarted s = { busRead s.fce.paddr s with fce := rowNext s.cfg.toParams s.fce (rowAnswer s) } := by
    simp only [spinEraseStarted, rowNext_dq3 _ _ hp, rowAnswer, rowAddress, hp]
    split_ifs
    · rw [toPhase_eq, statusLoad, onFce_onFce, onFce_onFce]
      refine onFce_eq ?_; rw [busRead_fce]
    · rw [enterReset_eq, statusLoad, onFce_onFce]
      refine onFce_eq ?_; rw [busRead_fce]; rfl
    · refine onFce_eq ?_; rw [busRead_fce, ← hp]
  exact .of_load (g := fun _ => rowNext s.cfg.toParams s.fce (rowAnswer s)) (hstep.trans (congrArg _ hspin))
    (by simp only [rowEvent, rowAnswer, rowAddress, hp]) rfl

/-- Row PL1. -/
theorem pl1_runsItsRow (hp : s.fce.phase = .pl1) (hpolling : s.fce.polling s.cfg.toParams) : RunsItsRow s := by
  have hstep : fceStep s = pollFirst s := by
    simp only [fceStep, phaseCommand, fceLoad, hp, inWindow_of_lt _ _ (polling_lt hpolling)]
  have hop : (statusLoad s).fce.op = 0x02 ∨ (statusLoad s).fce.op = 0x03 ∨ (statusLoad s).fce.op = 0x04 := by
    simpa only [statusLoad_fce] using polling_op hpolling
  have hpoll : pollFirst s =
      .next { busRead s.fce.paddr s with fce := rowNext s.cfg.toParams s.fce (rowAnswer s) } := by
    simp only [pollFirst, rowNext_pl1 _ _ hp, rowAnswer, rowAddress, hp]
    split_ifs
    · rw [pollSuccess_eq _ hop, statusLoad_fce]; rfl
    · rw [toPhase_eq, statusLoad, onFce_onFce]
      refine congrArg _ (onFce_eq ?_); rw [busRead_fce]
    · rw [pollTimeout_eq _ hop, statusLoad_fce]; rfl
    · refine congrArg _ (onFce_eq ?_); rw [busRead_fce, ← hp]
  exact .of_load (g := fun _ => rowNext s.cfg.toParams s.fce (rowAnswer s)) (hstep.trans hpoll)
    (by simp only [rowEvent, rowAnswer, rowAddress, hp]) rfl

/-- Row PL2. -/
theorem pl2_runsItsRow (hp : s.fce.phase = .pl2) (hpolling : s.fce.polling s.cfg.toParams) : RunsItsRow s := by
  have hstep : fceStep s = pollAgain s := by
    simp only [fceStep, phaseCommand, fceLoad, hp, inWindow_of_lt _ _ (polling_lt hpolling)]
  have hpoll : pollAgain s =
      .next { busRead s.fce.paddr s with fce := rowNext s.cfg.toParams s.fce (rowAnswer s) } := by
    simp only [pollAgain, rowNext_pl2 _ _ hp, rowAnswer, rowAddress, hp]
    split_ifs
    · rw [pollSuccess_eq _ (by simpa using polling_op hpolling), State.onFce_fce, busRead_fce]; rfl
    · rw [pollFailure_eq _ (by simpa using polling_op hpolling), State.onFce_fce, busRead_fce]; rfl
  exact .of_load (g := fun _ => rowNext s.cfg.toParams s.fce (rowAnswer s)) (hstep.trans hpoll)
    (by simp only [rowEvent, rowAnswer, rowAddress, hp]) rfl

/-- While FCE is busy its step is one row of the phase table: the whole of R123 and R124, from FCE's invariant. -/
theorem busy_runsItsRow (hinv : FceInv s) (hbusy : s.fce.phase ≠ .idle) : RunsItsRow s := by
  obtain ⟨hphase, -, -⟩ := hinv
  cases hp : s.fce.phase <;> simp only [Fce.phaseOk, hp] at hphase
  case idle => exact absurd hp hbusy
  case as1 | as2 | as3 => exact autoselect_runsItsRow (by simp only [phaseCommand, hp])
  case idr1 => exact idr1_runsItsRow hp
  case idr2 => exact idr2_runsItsRow hp
  case er1 | er2 | er3 | er4 | er5 | er6 => exact blockErase_runsItsRow (by rw [phaseCommand, hp]) hphase
  case dq3 =>
    obtain ⟨herasing, hpaddr, -⟩ := hphase
    exact dq3_runsItsRow hp (hpaddr ▸ erasing_lt herasing)
  case pg1 | pg2 | pg3 | pg4 => exact program_runsItsRow (by rw [phaseCommand, hp]) hphase
  case pl1 =>
    obtain ⟨hpolling, -⟩ := hphase
    exact pl1_runsItsRow hp hpolling
  case pl2 => exact pl2_runsItsRow hp hphase
  case rs1 | rs2 | rs3 => exact reset_runsItsRow (by simp only [phaseCommand, hp])
  case rd =>
    obtain ⟨-, hwindow⟩ := hphase
    exact rd_runsItsRow hp hwindow

end

end Sys2Proof.Machine
end

section
/-! PROOFS. A body's step with a tick at hand, and no request running that it waits for, moves SEQ. -/

namespace Sys2Proof.Machine

/-- SEQ has gone on: its position or one of the counters of its loops is another. -/
def Moves (q q' : Seq) : Prop := q'.pos ≠ q.pos ∨ q'.i ≠ q.i ∨ q'.k ≠ q.k ∨ q'.n ≠ q.n

theorem Moves.ne {q q' : Seq} (h : Moves q q') : q' ≠ q := by
  rintro rfl
  simp [Moves] at h

theorem Moves.of_pos {q q' : Seq} (h : q'.pos ≠ q.pos) : Moves q q' := .inl h

/-- A `Start` leaves SEQ alone where what it begins does. -/
theorem start_seq (op : Byte) (o : Operands) (accepted : State → State) (s : State)
    (h : ∀ t, (accepted t).seq = t.seq) : (start op o accepted s).seq = s.seq := by
  unfold start
  split_ifs
  · rfl
  · rw [h]; simp

/-- The check of `id_valid` leaves SEQ alone where what follows it does. -/
theorem whenIdentified_seq (go : State → State) (s : State) (h : ∀ t, (go t).seq = t.seq) :
    (whenIdentified go s).seq = s.seq := by
  simp [whenIdentified, h]

@[simp] theorem acceptIdentify_seq (o : Operands) (s : State) : (acceptIdentify o s).seq = s.seq :=
  start_seq _ _ _ _ (by simp)

@[simp] theorem acceptEraseBlock_seq (o : Operands) (s : State) : (acceptEraseBlock o s).seq = s.seq :=
  start_seq _ _ _ _ (by simp [whenIdentified_seq])

@[simp] theorem acceptProgramByte_seq (o : Operands) (s : State) : (acceptProgramByte o s).seq = s.seq :=
  start_seq _ _ _ _ (by simp [whenIdentified_seq])

@[simp] theorem acceptRead_seq (o : Operands) (s : State) : (acceptRead o s).seq = s.seq :=
  start_seq _ _ _ _ (by simp)

@[simp] theorem acceptReset_seq (o : Operands) (s : State) : (acceptReset o s).seq = s.seq :=
  start_seq _ _ _ _ (by simp)

theorem endBody_pos (s : State) : (endBody s).seq.pos = if s.seq.mask ≠ 0 then .showSet .error else .ret .noError := by
  simp [endBody]

/-! ### The positions bodies share -/

/-- What a body does at the entry of its dispatch, after `outcome` is cleared. -/
def bodyEntry : TestId → State → State
  | .error => goto (.showSet .noError)
  | .soutBus => soutEntry
  | .plisRegisters => plisEntry
  | .dataBus => fun t => goto .dbEnable (clearMask t)
  | .fram => fun t => goto .frEnable (clearMask t)
  | .twoRam => fun t => ramTickAt 0 (clearMask t)
  | .extBus => extBusAt 0

theorem bodyStep_shared (self : TestId) {s : State} (h : s.seq.pos.owner = none) :
    bodyStep self s = sharedStep self (bodyEntry self) s := by
  cases hp : s.seq.pos <;> simp only [SeqPos.owner, hp, reduceCtorEq] at h <;> cases self <;>
    simp only [bodyStep, soutBusStep, plisStep, dataBusStep, framStep, twoRamStep, extBusStep, hp, bodyEntry]

/-- No body begins at the entry of a dispatch again. -/
theorem bodyEntry_pos (self : TestId) (s : State) : (bodyEntry self s).seq.pos ≠ .dispatch := by
  cases self
  case twoRam =>
    simp only [bodyEntry, ramTickAt]
    split_ifs <;> simp [endBody]
  case extBus =>
    simp only [bodyEntry, extBusAt, goto_eq, State.onSeq_seq]
    split_ifs <;> simp
  all_goals simp [bodyEntry, soutEntry, plisEntry]

theorem shared_moves (self : TestId) {s : State} (htick : s.cycleFlag = true) (h : s.seq.pos.owner = none) :
    Moves s.seq (bodyStep self s).seq := by
  rw [bodyStep_shared self h]
  cases hp : s.seq.pos <;> simp only [SeqPos.owner, hp, reduceCtorEq] at h <;> simp only [sharedStep, hp]
  case dispatch => exact .of_pos (hp ▸ bodyEntry_pos self _)
  case showSet after =>
    refine .of_pos ?_
    simp only [showSetStep, goto_eq, State.onSeq_seq, hp]
    split_ifs <;> simp
  case showWait after =>
    rw [showWaitStep, waitTick_set _ _ htick]
    split_ifs
    · simp [Moves]
    · simp [Moves, hp]
  case ret o => simp [Moves, finishDispatch, hp]

/-! ### The positions of each body -/

theorem soutBus_moves {s : State} (htick : s.cycleFlag = true) (h : s.seq.pos.owner = some .soutBus) :
    Moves s.seq (soutBusStep s).seq := by
  cases hp : s.seq.pos <;> simp [SeqPos.owner, hp] at h <;> simp only [soutBusStep, hp]
  case soutSet => simp [Moves, hp]
  case soutWait =>
    rw [waitTick_set _ _ htick, soutNext]
    split_ifs <;> simp [Moves, hp]

theorem extBus_moves {s : State} (htick : s.cycleFlag = true) (h : s.seq.pos.owner = some .extBus) :
    Moves s.seq (extBusStep s).seq := by
  cases hp : s.seq.pos <;> simp [SeqPos.owner, hp] at h <;> simp only [extBusStep, hp]
  case ebDrive => simp [Moves, hp]
  case ebWait =>
    rw [waitTick_set _ _ htick, extBusAt]
    split_ifs <;> simp [Moves, hp]

/-- A loop of `PlisRegisters` goes on with its next index, or leaves its position. -/
theorem plisAgain_moves {count : Nat} {again : SeqPos} {done : State → State} {s t : State}
    (hdone : (done t).seq.pos ≠ s.seq.pos) (hi : t.seq.i = s.seq.i) :
    Moves s.seq (plisAgain count again done t).seq := by
  unfold plisAgain
  split_ifs
  · simp [Moves, hi]
  · exact .of_pos hdone

theorem plisCheck_seq (h : Handle) (want bit : Byte) (s : State) :
    (plisCheck h want bit s).seq =
      { s.seq with mask := if periphAnswer h s != want then s.seq.mask ||| bit else s.seq.mask } := by
  simp [plisCheck]

theorem plisRepetitionDone_pos (s : State) : (plisRepetitionDone s).seq.pos ≠ .plisAliasRead := by
  unfold plisRepetitionDone
  split_ifs <;> simp [endBody]
  split_ifs <;> simp

theorem plis_moves {s : State} (htick : s.cycleFlag = true) (h : s.seq.pos.owner = some .plisRegisters) :
    Moves s.seq (plisStep s).seq := by
  cases hp : s.seq.pos <;> simp [SeqPos.owner, hp] at h <;> simp only [plisStep, hp]
  case plisWait => rw [waitTick_set _ _ htick]; simp [Moves, hp]
  case plisVersion | plisExtWrite | plisInitWrite => simp [Moves, plisLoop, plisWalk, hp]
  case plisExtRead | plisInitRead | plisAliasWrite =>
    exact plisAgain_moves (by simp [plisLoop, hp]) (by simp [plisCheck_seq])
  case plisAliasRead => exact plisAgain_moves (hp ▸ plisRepetitionDone_pos _) (by simp [plisCheck_seq])

theorem dataBus_moves {s : State} (h : s.seq.pos.owner = some .dataBus) : Moves s.seq (dataBusStep s).seq := by
  cases hp : s.seq.pos <;> simp [SeqPos.owner, hp] at h <;> simp only [dataBusStep, hp]
  case dbWdt =>
    unfold dbNext
    split_ifs <;> simp [Moves, hp]
  case dbDisable =>
    refine .of_pos ?_
    rw [endBody_pos, hp]
    split_ifs <;> simp
  all_goals simp [Moves, hp, dbCheckWritten, dbCheckPaired]

/-- A loop of `TwoRam` goes on with its next offset, or leaves its position. -/
theorem ramAgain_moves {again : SeqPos} {done : State → State} {s t : State}
    (hdone : (done t).seq.pos ≠ s.seq.pos) (hk : t.seq.k = s.seq.k) : Moves s.seq (ramAgain again done t).seq := by
  unfold ramAgain
  split_ifs
  · simp [Moves, hk]
  · exact .of_pos hdone

/-- A loop over the RAM region begins at its head or, for an empty region, is over. -/
theorem ramLoop_pos (p done : SeqPos) (s : State) :
    (ramLoop p done s).seq.pos = if 0 < s.cfg.ramLen then p else done := by
  simp [ramLoop]

theorem ramTickAt_pos (t : Nat) (s : State) :
    (ramTickAt t s).seq.pos = if t < s.cfg.tworamTicks then .trWait
      else if s.seq.mask ≠ 0 then .showSet .error else .ret .noError := by
  unfold ramTickAt
  split_ifs <;> simp_all [endBody]

theorem twoRam_moves {s : State} (htick : s.cycleFlag = true) (h : s.seq.pos.owner = some .twoRam) :
    Moves s.seq (twoRamStep s).seq := by
  cases hp : s.seq.pos <;> simp [SeqPos.owner, hp] at h <;> simp only [twoRamStep, hp]
  case trWait =>
    rw [waitTick_set _ _ htick]
    refine .of_pos ?_
    rw [ramImmediate, ramLoop_pos, hp]
    split_ifs <;> simp
  case trImmWrite => simp [Moves, hp]
  case trImmRead => exact ramAgain_moves (by simp [hp]) (by simp [ramCheck])
  case trImmWdt =>
    refine .of_pos ?_
    rw [ramDelayedWrite, ramLoop_pos, hp]
    split_ifs <;> simp
  case trDelWrite =>
    refine ramAgain_moves ?_ (by simp [ramWriteNext, stepG])
    rw [ramDelayedRead, ramLoop_pos, hp]
    split_ifs <;> simp
  case trDelRead => exact ramAgain_moves (by simp [hp]) (by simp [ramCheck, stepG])
  case trDelWdt =>
    refine .of_pos ?_
    rw [ramTickAt_pos, hp]
    split_ifs <;> simp

/-- Pass 2 at a block is at its first byte or at its batch reset. -/
theorem framWriteBlock_pos (b : Nat) (s : State) :
    (framWriteBlock b s).seq.pos = if 0 < blockSize s.cfg.toParams b then .frProgram else .frBatchReset := by
  simp [framWriteBlock, framBlockAt]

/-- Pass 3 from a block on is at a byte to verify or past the passes. -/
theorem framVerifyBlock_pos (b : Nat) (s : State) :
    (framVerifyBlock b s).seq.pos = .frVerify ∨ (framVerifyBlock b s).seq.pos = .frDisable := by
  unfold framVerifyBlock
  split <;> simp [framBlockAt]

theorem fram_moves {s : State} (hdone : s.seq.pos.awaitsDone = true → s.fce.done = true)
    (h : s.seq.pos.owner = some .fram) : Moves s.seq (framStep s).seq := by
  refine .of_pos ?_
  cases hp : s.seq.pos <;> simp [SeqPos.owner, hp] at h <;> simp [SeqPos.awaitsDone, hp] at hdone <;>
    simp only [framStep, hp]
  case frIdentifyDone =>
    rw [whenDone_set _ _ hdone, framIdentified]
    split_ifs <;> simp
  case frEraseDone => rw [whenDone_set _ _ hdone]; simp
  case frEraseWdt =>
    unfold framErased
    split_ifs
    · simp
    · rw [framWriteBlock_pos]; split_ifs <;> simp
  case frProgramDone =>
    rw [whenDone_set _ _ hdone]
    simp only [framProgrammed, goto_eq, State.onSeq_seq]
    split_ifs <;> simp
  case frReadDone | frVerifyDone => rw [whenDone_set _ _ hdone]; simp
  case frWriteWdt => unfold framWritten; split_ifs <;> simp
  case frBatchResetDone =>
    rw [whenDone_set _ _ hdone]
    unfold framBatchDone
    split_ifs
    · rw [framWriteBlock_pos]; split_ifs <;> simp
    · rcases framVerifyBlock_pos 0 s with e | e <;> simp [e]
  case frVerifyWdt =>
    unfold framVerified
    split_ifs
    · simp
    · rcases framVerifyBlock_pos (framBlock (wdtTouch s) + 1) (wdtTouch s) with e | e <;> simp [e]
  case frDisable => rw [endBody_pos]; split_ifs <;> simp
  all_goals simp [framProgram, stepG]

/-- With a tick at hand, and no request running that it waits for, a step of a body moves SEQ. -/
theorem bodyStep_moves {self : TestId} {s : State} (htick : s.cycleFlag = true)
    (howner : ∀ x, s.seq.pos.owner = some x → x = self)
    (hdone : s.seq.pos.awaitsDone = true → s.fce.done = true) : Moves s.seq (bodyStep self s).seq := by
  cases hown : s.seq.pos.owner with
  | none => exact shared_moves self htick hown
  | some x =>
    obtain rfl := howner x hown
    cases x
    case error => cases hp : s.seq.pos <;> simp [SeqPos.owner, hp] at hown
    case soutBus => exact soutBus_moves htick hown
    case plisRegisters => exact plis_moves htick hown
    case dataBus => exact dataBus_moves hown
    case fram => exact fram_moves hdone hown
    case twoRam => exact twoRam_moves htick hown
    case extBus => exact extBus_moves htick hown

end Sys2Proof.Machine
end

section
/-! PROOFS. What a turn of each agent runs and when it has a next state; the statements of 00_scope.md. -/

namespace Sys2Proof.Machine

/-! ### What a turn runs, and what it needs to run -/

/-- A turn of the core runs the wire command of FCE's phase (R123). -/
theorem core_command {s : State} {i : Instr} (hbusy : s.fce.phase ≠ .idle) (hc : phaseCommand s = some i) :
    agentStep .core s = exec i s := by
  simp [agentStep, fetch, coreFetch, (busy_eq _).mpr hbusy, hc]

/-- A requester's `Start` runs as what it decodes to, the request taken off its list (R121). -/
theorem bench_start {s : State} {op : Byte} {o : Operands} {rest : List BenchEvent} (h : s.bench = .start op o :: rest) :
    agentStep .bench s = exec (decodeReq op o) { s with bench := rest } := by
  simp [agentStep, fetch, h]

/-- A requester's write of `buf` (R26). -/
theorem bench_bufWrite {s : State} {i : Nat} {d : Byte} {rest : List BenchEvent} (h : s.bench = .bufWrite i d :: rest) :
    agentStep .bench s = bufWrite i d { s with bench := rest } := by
  simp [agentStep, fetch, noFetch, benchWrite, h]

/-- A requester that enables the flash window (R234). -/
theorem bench_openWindow {s : State} {rest : List BenchEvent} (h : s.bench = .openWindow :: rest) :
    agentStep .bench s = .next (flashWindow true { s with bench := rest }) := by
  simp [agentStep, fetch, noFetch, benchWrite, h]

/-- A requester that presents nothing changes nothing. -/
theorem bench_nil {s : State} (h : s.bench = []) : agentStep .bench s = .next s := by
  simp [agentStep, fetch, noFetch, benchWrite, h]

/-- A request is always answered: accepted by an idle FCE, ignored by a busy one (R25). -/
theorem request_next (op : Byte) (o : Operands) (s : State) : ∃ t, exec (decodeReq op o) s = .next t := by
  by_cases hidle : s.fce.phase = .idle
  · exact ⟨_, accept_idle op o s hidle⟩
  · exact ⟨s, request_busy _ s (decodeReq_isRequest op o) hidle⟩

theorem decodeTid_code (self : TestId) : decodeTid self.code = self.instr := by cases self <;> rfl

/-- While FCE is idle a turn of the core is one step of the body of the test in `cur` (R28, R151). -/
theorem core_body {s : State} {self : TestId} (hidle : s.fce.phase = .idle) (hcur : s.seq.cur = self.code) :
    agentStep .core s = .next (bodyStep self s) := by
  rw [core_idle s hidle, hcur, decodeTid_code, exec_body]

/-! ### Taking the turn, and TICK, leave what the invariants and the phases speak of -/

@[simp] theorem phaseCommand_afterTurn (s : State) : phaseCommand (afterTurn s) = phaseCommand s := by
  simp [phaseCommand, eraseTarget, programTarget, programValue]

theorem afterTurn_fceInv {s : State} (h : FceInv s) : FceInv (afterTurn s) := by simpa [FceInv] using h

theorem afterTurn_seqInv {s : State} (h : SeqInv s) : SeqInv (afterTurn s) := by simpa [SeqInv] using h

theorem tickStep_fceInv {s : State} (h : FceInv s) : FceInv (tickStep s) := by simpa [FceInv] using h

/-- From the invariants a turn of the core while FCE is busy makes one bus cycle. -/
theorem core_busy_next {s : State} (hfce : FceInv s) (hbusy : s.fce.phase ≠ .idle) :
    ∃ t e, agentStep .core s = .next t ∧ FceOnly s [e] t := by
  obtain ⟨e, t, -, hstep, honly, -⟩ := busy_runsItsRow hfce hbusy
  exact ⟨t, e, (core_busy s hbusy).trans hstep, honly⟩

/-- From the invariants a turn of the core has a next state. -/
theorem core_next {s : State} (hfce : FceInv s) (hseq : SeqInv s) : ∃ t, agentStep .core s = .next t := by
  by_cases hidle : s.fce.phase = .idle
  · obtain ⟨⟨self, hcur, -⟩, -⟩ := hseq
    exact ⟨_, core_body hidle hcur⟩
  · obtain ⟨t, -, hstep, -⟩ := core_busy_next hfce hidle
    exact ⟨t, hstep⟩

/-- A requester's turn has a next state, but for a write of a byte of `buf` that does not exist. -/
theorem bench_turn_next {s : State} (hbuf : ∀ i d rest, s.bench = .bufWrite i d :: rest → i < s.cfg.bufMax) :
    ∃ t, agentStep .bench s = .next t := by
  match hb : s.bench with
  | [] => exact ⟨s, bench_nil hb⟩
  | .start op o :: rest => rw [bench_start hb]; exact request_next op o _
  | .bufWrite i d :: rest => exact ⟨_, (bench_bufWrite hb).trans (if_pos (hbuf i d rest hb))⟩
  | .openWindow :: rest => exact ⟨_, bench_openWindow hb⟩

/-! ### The obligations -/

/-- Settles O52: by agent; FCE's rows and SEQ's bodies answer next from the invariants. -/
theorem everyStepHasANextState : Obligations.EveryStepHasANextState := by
  unfold Obligations.EveryStepHasANextState
  intro s hfce hseq hbuf
  unfold step
  cases hturn : turn s with
  | core => exact core_next (afterTurn_fceInv hfce) (afterTurn_seqInv hseq)
  | bench => exact bench_turn_next (by simpa using fun i d rest => hbuf i d rest hturn)
  | tick => exact ⟨_, rfl⟩
  | resetLine => exact ⟨_, rfl⟩

/-- Settles O53: a busy FCE lengthens the bus trace, else the body of `cur` moves SEQ. -/
theorem nothingHoldsTheCoreButATick : Obligations.NothingHoldsTheCoreButATick := by
  unfold Obligations.NothingHoldsTheCoreButATick
  intro s hfce hseq
  unfold coreTurn
  by_cases hidle : s.fce.phase = .idle
  · obtain ⟨⟨self, ⟨hcur, howner, -⟩⟩, -, -, hwait⟩ := hseq
    have hdone (hawaits : s.seq.pos.awaitsDone = true) : s.fce.done = true :=
      (hwait hawaits).resolve_left (by simp [(idle_eq _).mpr hidle])
    have hmoves : Moves s.seq (bodyStep self (tickStep s)).seq := by
      simpa using bodyStep_moves (s := tickStep s) (by simp) (by simpa using howner) (by simpa using hdone)
    exact ⟨_, core_body (by simpa using hidle) (by simpa using hcur), .inr (.inl hmoves.ne)⟩
  · obtain ⟨t, e, hstep, _, _, _, rfl⟩ := core_busy_next (tickStep_fceInv hfce) (by simpa using hidle)
    exact ⟨_, hstep, .inr (.inr (by simp))⟩

/-- Settles O4: each clause is the law of its agent, in the state with the turn taken. -/
theorem stepRunsTheDecodedInstruction : Obligations.StepRunsTheDecodedInstruction := by
  unfold Obligations.StepRunsTheDecodedInstruction
  refine ⟨fun _ => rfl, ?_, ?_, ?_, ?_, ?_, ?_⟩
  · intro s i hturn hidle hdecode
    cases hdecode
    rw [step, hturn, core_idle _ (by simpa using hidle), afterTurn_seq]
  · intro s op o rest i hturn hbench hdecode
    cases hdecode
    rw [step, hturn, bench_start (by simpa using hbench)]
  · intro s i hturn hbusy hcommand
    rw [step, hturn, core_command (by simpa using hbusy) (by simpa using hcommand)]
  · intro s hturn hbusy
    rw [step, hturn, core_busy _ (by simpa using hbusy)]
  · intro s
    cases hagenda : s.agenda with
    | nil => exact ⟨[], s.draws + 1, by simp [afterTurn, State.countDraw, hagenda], .inr ⟨rfl, rfl⟩⟩
    | cons a rest => exact ⟨rest, s.draws, by simp [afterTurn, hagenda], .inl (by simp [turn, hagenda])⟩
  · intro s hturn hbench
    rw [step, hturn, bench_nil (by simpa using hbench)]

end Sys2Proof.Machine
end

section
/-! PROOFS. What a turn can do, in every state, as inversion lemmas: a request's one update of FCE, FCE's one bus cycle,
a body's one primitive call (R152). -/

namespace Sys2Proof.Machine

/-! ### A request -/

/-- What a request does to FCE's registers, whatever its opcode and operands: `buf` and `id_valid` stay, and it runs or
has ended. -/
theorem acceptance_keeps (c : Params) (op : Byte) (o : Operands) (f : Fce) :
    (acceptance c op o f).buf = f.buf ∧ (acceptance c op o f).idValid = f.idValid ∧
    ((acceptance c op o f).phase ≠ .idle ∨ (acceptance c op o f).done = true) := by
  unfold acceptance
  split_ifs <;> simp [Fce.latched, Fce.ended, Fce.resetting]

/-- A request is ignored by a busy FCE, and else is its row of R121. -/
theorem request_eq (op : Byte) (o : Operands) (s : State) :
    exec (decodeReq op o) s =
      .next (if s.fce.phase = .idle then { s with fce := acceptance s.cfg.toParams op o s.fce } else s) := by
  split_ifs with hidle
  · exact accept_idle op o s hidle
  · exact request_busy _ s (decodeReq_isRequest op o) hidle

/-! ### FCE's step -/

/-- `u` is `s` after one bus cycle (R14, R123). -/
inductive BusCall (s : State) : State → Prop where
  | store (a : Nat) (d : Byte) : BusCall s (busWrite a d s)
  | load (a : Nat) : BusCall s (busRead a s)

/-- What every row of the phase table makes of FCE's registers: `buf` stays, the operation runs or has ended, and
`id_valid` stays but at row IDR2, which records the comparison (R27). -/
structure Fce.RowWrites (c : Params) (f f' : Fce) : Prop where
  buf : f'.buf = f.buf
  runsOrDone : f'.phase ≠ .idle ∨ f'.done = true
  idValid : f'.idValid = f.idValid ∨
    f.phase = .idr2 ∧ (f'.idValid = true ↔ f'.idMfr = c.manufacturer ∧ f'.idDev = c.deviceCode)

/-- `t` is `s` after one bus cycle and the register writes of a row. -/
def IsRow (s t : State) : Prop :=
  ∃ u f, BusCall s u ∧ s.fce.RowWrites s.cfg.toParams f ∧ t = { u with fce := f }

section
variable {s t : State}

/-- A row that stores. -/
theorem IsRow.of_store {a : Nat} {d : Byte} {f : Fce} (hwrites : s.fce.RowWrites s.cfg.toParams f) :
    IsRow s { busWrite a d s with fce := f } := ⟨_, f, .store a d, hwrites, rfl⟩

/-- A row that loads. -/
theorem IsRow.of_load {a : Nat} {f : Fce} (hwrites : s.fce.RowWrites s.cfg.toParams f) :
    IsRow s { busRead a s with fce := f } := ⟨_, f, .load a, hwrites, rfl⟩

/-- A row that stores and goes on to the next phase. -/
theorem IsRow.of_storeTo {a : Nat} {d : Byte} {p : Phase} (hp : p ≠ .idle) : IsRow s (toPhase p (busWrite a d s)) :=
  .of_store (f := { (busWrite a d s).fce with phase := p }) ⟨by simp, .inl hp, .inl (by simp)⟩

theorem execSeqAutoselect_row (h : execSeqAutoselect s = .next t) : IsRow s t := by
  unfold execSeqAutoselect at h
  split at h <;> cases h <;> exact .of_storeTo (by simp)

theorem execSeqReset_row (h : execSeqReset s = .next t) : IsRow s t := by
  unfold execSeqReset at h
  split at h <;> cases h
  case h_2 =>
    rw [resetSequenceDone_eq]
    refine .of_store (f := (command 0xF0 s).fce.sequenceEnded) ?_
    unfold Fce.sequenceEnded
    split_ifs <;> exact ⟨by simp [command], by simp, .inl (by simp [command])⟩
  all_goals exact .of_storeTo (by simp)

/-- The data store of a program and the confirm store of an erase. -/
theorem IsRow.of_expect {a b : Nat} {d v : Byte} {p : Phase} (hp : p ≠ .idle)
    (h : inWindow b s (.next (toPhase p (expect a v (busWrite a d s)))) = .next t) : IsRow s t := by
  obtain ⟨-, heq⟩ := inWindow_next s h
  cases heq
  exact .of_store (f := { (busWrite a d s).fce with paddr := a, exp := v, pcnt := 0, phase := p })
    ⟨by simp, .inl hp, .inl (by simp)⟩

theorem execSeqProgram_row {a : Nat} {v : Byte} (h : execSeqProgram a v s = .next t) : IsRow s t := by
  unfold execSeqProgram at h
  split at h
  case h_3 => exact .of_expect (by simp) h
  all_goals cases h; exact .of_storeTo (by simp)

theorem execSeqBlockErase_row {a : Nat} (h : execSeqBlockErase a s = .next t) : IsRow s t := by
  unfold execSeqBlockErase at h
  split at h
  case h_5 => exact .of_expect (by simp) h
  all_goals cases h; exact .of_storeTo (by simp)

/-! ### The load rows -/

/-- The exits of R124 keep `buf` and `id_valid`, and the operation runs on or has ended. -/
theorem pollExit_keeps (f : Fce) (r : PollResult) :
    (pollExit f r).buf = f.buf ∧ (pollExit f r).idValid = f.idValid ∧
    ((pollExit f r).phase ≠ .idle ∨ (pollExit f r).done = true) := by
  cases r <;> simp only [pollExit] <;> split_ifs <;> simp [Fce.resetting, Fce.ended]

/-- Completion detection has an exit only for an `op` with a column in R124. -/
theorem exit_op (h : pollSuccess s = .next t ∨ pollFailure s = .next t ∨ pollTimeout s = .next t) :
    s.fce.op = 0x02 ∨ s.fce.op = 0x03 ∨ s.fce.op = 0x04 := by
  have hop : s.fce.op.toNat = 2 ∨ s.fce.op.toNat = 3 ∨ s.fce.op.toNat = 4 := by
    unfold pollSuccess pollFailure pollTimeout at h
    rcases h with h | h | h <;> split at h <;> simp_all
  simpa [← BitVec.toNat_inj] using hop

theorem pollSuccess_next (h : pollSuccess s = .next t) : t = { s with fce := pollExit s.fce .success } := by
  rw [pollSuccess_eq s (exit_op (.inl h))] at h
  exact (Host.Outcome.next.inj h).symm

theorem pollFailure_next (h : pollFailure s = .next t) : t = { s with fce := pollExit s.fce .failure } := by
  rw [pollFailure_eq s (exit_op (.inr (.inl h)))] at h
  exact (Host.Outcome.next.inj h).symm

theorem pollTimeout_next (h : pollTimeout s = .next t) : t = { s with fce := pollExit s.fce .timeout } := by
  rw [pollTimeout_eq s (exit_op (.inr (.inr h)))] at h
  exact (Host.Outcome.next.inj h).symm

/-- A load that leaves `buf` and `id_valid` alone, then an exit of R124. -/
theorem IsRow.of_exit {a : Nat} {g : Fce → Fce} {r : PollResult} (hbuf : (g s.fce).buf = s.fce.buf)
    (hid : (g s.fce).idValid = s.fce.idValid)
    (h : t = { (busRead a s).onFce g with fce := pollExit ((busRead a s).onFce g).fce r }) : IsRow s t := by
  obtain ⟨hkeepsBuf, hkeepsId, hruns⟩ := pollExit_keeps ((busRead a s).onFce g).fce r
  rw [State.onFce_fce, busRead_fce] at hkeepsBuf hkeepsId
  subst h
  exact .of_load ⟨by simpa [hbuf] using hkeepsBuf, hruns, .inl (by simpa [hid] using hkeepsId)⟩

/-- A load that leaves `buf` and `id_valid` alone and FCE at a row. -/
theorem IsRow.of_loadTo {a : Nat} {g : Fce → Fce} (hbuf : (g s.fce).buf = s.fce.buf)
    (hid : (g s.fce).idValid = s.fce.idValid) (hruns : (g s.fce).phase ≠ .idle ∨ (g s.fce).done = true) :
    IsRow s ((busRead a s).onFce g) :=
  .of_load (f := g (busRead a s).fce) ⟨by simpa using hbuf, by simpa using hruns, .inl (by simpa using hid)⟩

theorem loadDev_row (hp : s.fce.phase = .idr2) : IsRow s (loadDev s) := by
  rw [loadDev, enterReset_eq, onFce_onFce]
  refine .of_load (f := _) ⟨?_, .inl ?_, .inr ⟨hp, ?_⟩⟩
  · simp
  · simp
  · simp [identityMatches_eq]

theorem spinEraseStarted_row (hp : s.fce.phase = .dq3) : IsRow s (spinEraseStarted s) := by
  unfold spinEraseStarted statusLoad
  dsimp only
  split_ifs
  · rw [toPhase_eq, onFce_onFce, onFce_onFce]; exact .of_loadTo rfl rfl (by simp)
  · rw [enterReset_eq, onFce_onFce]; exact .of_loadTo rfl rfl (by simp)
  · exact .of_loadTo rfl rfl (by simp [hp])

theorem pollFirst_row (hp : s.fce.phase = .pl1) (h : pollFirst s = .next t) : IsRow s t := by
  unfold pollFirst at h
  dsimp only at h
  split_ifs at h
  · exact .of_exit rfl rfl (pollSuccess_next h)
  · cases h
    rw [toPhase_eq, statusLoad, onFce_onFce]; exact .of_loadTo rfl rfl (by simp)
  · exact .of_exit rfl rfl (pollTimeout_next h)
  · cases h
    exact .of_loadTo rfl rfl (by simp [hp])

theorem pollAgain_row (h : pollAgain s = .next t) : IsRow s t := by
  unfold pollAgain at h
  dsimp only at h
  split_ifs at h
  · exact .of_exit rfl rfl (pollSuccess_next h)
  · exact .of_exit rfl rfl (pollFailure_next h)

/-- FCE's step while it is busy, from any registers: one bus cycle and the writes of a row (R123, R124). -/
theorem fceStep_row (hbusy : s.fce.phase ≠ .idle) (h : fceStep s = .next t) : IsRow s t := by
  cases hp : s.fce.phase <;> simp only [fceStep, phaseCommand, fceLoad, hp] at h
  case idle => exact absurd hp hbusy
  case as1 | as2 | as3 => exact execSeqAutoselect_row h
  case rs1 | rs2 | rs3 => exact execSeqReset_row h
  case pg1 | pg2 | pg3 | pg4 => exact execSeqProgram_row h
  case er1 | er2 | er3 | er4 | er5 | er6 => exact execSeqBlockErase_row h
  case idr1 =>
    cases h
    rw [loadMfr, toPhase_eq, onFce_onFce]; exact .of_loadTo rfl rfl (by simp)
  case idr2 => cases h; exact loadDev_row hp
  case dq3 =>
    obtain ⟨-, heq⟩ := inWindow_next s h
    cases heq; exact spinEraseStarted_row hp
  case pl1 => exact pollFirst_row hp (inWindow_next s h).2
  case pl2 => exact pollAgain_row (inWindow_next s h).2
  case rd =>
    obtain ⟨-, heq⟩ := inWindow_next s h
    cases heq
    rw [plainLoad, finish_eq, onFce_onFce]; exact .of_loadTo rfl rfl (by simp)

end

end Sys2Proof.Machine
end

section
/-! PROOFS. A body's step, in every state, as one primitive call and writes of SEQ's registers (R152). -/

namespace Sys2Proof.Machine

/-- `t` is `s` but for SEQ's registers. -/
def OnlySeq (s t : State) : Prop := ∃ q, t = { s with seq := q }

/-- `u` is `s` after at most one primitive call of a body (R152), the entry's record of the dispatch (R7), the clear of a
`WaitTick`, or a request accepted by an idle FCE (R121). -/
inductive SeqCall (s : State) : State → Prop where
  | nothing : SeqCall s s
  | dispatch (self : TestId) : SeqCall s { s with dispatchTrace := s.dispatchTrace ++ [self.code] }
  | tick (hwaits : s.seq.pos.awaitsTick = true) : SeqCall s (consumeTick s)
  | outSet (b : Byte) : SeqCall s (outSet b s)
  | periphStore (a : Nat) (d : Byte) (e : PeriphEvent) :
      SeqCall s (State.logPeriph { s with periph := s.periph.store a d } e)
  | periphLoad (e : PeriphEvent) : SeqCall s ((periphAfterLoad s).logPeriph e)
  | drive (e : PeriphEvent) : SeqCall s (s.logPeriph e)
  | extAccess (e : Bool) : SeqCall s (extAccess e s)
  | flashWindow (e : Bool) : SeqCall s (flashWindow e s)
  | request (op : Byte) (o : Operands) (hidle : s.fce.phase = .idle) :
      SeqCall s { s with fce := acceptance s.cfg.toParams op o s.fce }

/-- `t` is `s` after one call and writes of SEQ's registers. -/
def IsCall (s t : State) : Prop := ∃ u, SeqCall s u ∧ OnlySeq u t

section
variable {s t u : State}

/-! ### Writes of SEQ's registers -/

theorem OnlySeq.refl (s : State) : OnlySeq s s := ⟨s.seq, rfl⟩

theorem OnlySeq.trans (h : OnlySeq s t) (h' : OnlySeq t u) : OnlySeq s u := by
  obtain ⟨q, rfl⟩ := h
  obtain ⟨q', rfl⟩ := h'
  exact ⟨q', rfl⟩

theorem OnlySeq.onSeq (s : State) (f : Seq → Seq) : OnlySeq s (s.onSeq f) := ⟨_, rfl⟩

theorem OnlySeq.ite {p : Prop} [Decidable p] (ht : OnlySeq s t) (hu : OnlySeq s u) : OnlySeq s (if p then t else u) := by
  split_ifs
  · exact ht
  · exact hu

theorem onlySeq_endBody (s : State) : OnlySeq s (endBody s) := ⟨_, rfl⟩

theorem onlySeq_soutNext (s : State) : OnlySeq s (soutNext s) := .ite ⟨_, rfl⟩ (.ite ⟨_, rfl⟩ ⟨_, rfl⟩)

theorem onlySeq_extBusAt (k : Nat) (s : State) : OnlySeq s (extBusAt k s) := ⟨_, rfl⟩

theorem onlySeq_plisAgain {count : Nat} {again : SeqPos} {done : State → State} (hdone : OnlySeq s (done s)) :
    OnlySeq s (plisAgain count again done s) := .ite ⟨_, rfl⟩ hdone

theorem onlySeq_plisRepetitionDone (s : State) : OnlySeq s (plisRepetitionDone s) := .ite ⟨_, rfl⟩ ⟨_, rfl⟩

theorem onlySeq_dbNext (s : State) : OnlySeq s (dbNext s) := .ite ⟨_, rfl⟩ ⟨_, rfl⟩

theorem onlySeq_ramAgain {again : SeqPos} {done : State → State} (hdone : OnlySeq s (done s)) :
    OnlySeq s (ramAgain again done s) := .ite ⟨_, rfl⟩ hdone

theorem onlySeq_ramTickAt (t : Nat) (s : State) : OnlySeq s (ramTickAt t s) := .ite ⟨_, rfl⟩ ⟨_, rfl⟩

theorem onlySeq_framVerifyBlock (b : Nat) (s : State) : OnlySeq s (framVerifyBlock b s) := by
  unfold framVerifyBlock
  split <;> exact ⟨_, rfl⟩

theorem onlySeq_framIdentified (s : State) : OnlySeq s (framIdentified s) := .ite ⟨_, rfl⟩ ⟨_, rfl⟩

theorem onlySeq_framErased (s : State) : OnlySeq s (framErased s) := .ite ⟨_, rfl⟩ ⟨_, rfl⟩

theorem onlySeq_framWritten (s : State) : OnlySeq s (framWritten s) := .ite ⟨_, rfl⟩ ⟨_, rfl⟩

theorem onlySeq_framBatchDone (s : State) : OnlySeq s (framBatchDone s) :=
  .ite ⟨_, rfl⟩ (onlySeq_framVerifyBlock 0 s)

theorem onlySeq_framVerified (s : State) : OnlySeq s (framVerified s) :=
  .ite ⟨_, rfl⟩ (onlySeq_framVerifyBlock _ s)

theorem onlySeq_whenDone {go : State → State} (hgo : OnlySeq s (go s)) : OnlySeq s (whenDone go s) := .ite hgo (.refl s)

theorem onlySeq_bodyEntry (self : TestId) (s : State) : OnlySeq s (bodyEntry self s) := by
  cases self
  case twoRam => exact (OnlySeq.onSeq s _).trans (onlySeq_ramTickAt 0 _)
  all_goals exact ⟨_, rfl⟩

/-! ### Calls -/

/-- No call: only SEQ's registers are written. -/
theorem OnlySeq.isCall (h : OnlySeq s t) : IsCall s t := ⟨s, .nothing, h⟩

/-- A `WaitTick` that returns goes on in the same step; one that does not holds SEQ (R154). -/
theorem IsCall.of_waitTick {go : State → State} (hwaits : s.seq.pos.awaitsTick = true)
    (hgo : OnlySeq (consumeTick s) (go (consumeTick s))) : IsCall s (waitTick go s) := by
  unfold waitTick
  split_ifs
  · exact ⟨_, .tick hwaits, hgo⟩
  · exact (OnlySeq.refl s).isCall

/-- A request presented after writes of SEQ's registers. -/
theorem IsCall.of_request {op : Byte} {o : Operands} (hseq : OnlySeq s u)
    (h : exec (decodeReq op o) u = .next t) : IsCall s t := by
  obtain ⟨q, rfl⟩ := hseq
  rw [request_eq] at h
  cases h
  split_ifs with hidle
  · exact ⟨_, .request op o hidle, q, rfl⟩
  · exact OnlySeq.isCall ⟨q, rfl⟩

/-! ### The bodies -/

/-- The positions bodies share: the entry, `ShowError` and the return (R151, R156). -/
theorem sharedStep_isCall (self : TestId) (s : State) : IsCall s (sharedStep self (bodyEntry self) s) := by
  unfold sharedStep
  split
  case h_1 after hp => exact ⟨_, .outSet s.seq.mask, _, rfl⟩
  case h_2 after hp =>
    refine .of_waitTick (by simp [hp, SeqPos.awaitsTick]) ?_
    split_ifs <;> exact ⟨_, rfl⟩
  case h_3 o hp => exact OnlySeq.isCall ⟨_, rfl⟩
  case h_4 => exact ⟨_, .dispatch self, (OnlySeq.onSeq _ _).trans (onlySeq_bodyEntry self _)⟩

/-- At a position of no body, or of another body, a body does what the shared positions do (log 20). -/
theorem bodyStep_foreign {self : TestId} {s : State} (h : s.seq.pos.owner ≠ some self) :
    bodyStep self s = sharedStep self (bodyEntry self) s := by
  cases self <;> cases hp : s.seq.pos <;> simp only [SeqPos.owner, hp, ne_eq, not_true_eq_false] at h <;>
    simp only [bodyStep, soutBusStep, plisStep, dataBusStep, framStep, twoRamStep, extBusStep, hp, bodyEntry]

theorem soutBus_isCall (h : s.seq.pos.owner = some .soutBus) : IsCall s (soutBusStep s) := by
  cases hp : s.seq.pos <;> simp [SeqPos.owner, hp] at h <;> simp only [soutBusStep, hp]
  case soutSet => exact ⟨_, .outSet _, _, rfl⟩
  case soutWait => exact .of_waitTick (by simp [hp, SeqPos.awaitsTick]) (onlySeq_soutNext _)

theorem extBus_isCall (h : s.seq.pos.owner = some .extBus) : IsCall s (extBusStep s) := by
  cases hp : s.seq.pos <;> simp [SeqPos.owner, hp] at h <;> simp only [extBusStep, hp]
  case ebDrive => exact ⟨_, .drive _, _, rfl⟩
  case ebWait => exact .of_waitTick (by simp [hp, SeqPos.awaitsTick]) (onlySeq_extBusAt _ _)

theorem plis_isCall (h : s.seq.pos.owner = some .plisRegisters) : IsCall s (plisStep s) := by
  have hcheck (h want bit) : OnlySeq ((periphAfterLoad s).logPeriph (.read h (periphAnswer h s)))
    (plisCheck h want bit s) := ⟨_, rfl⟩
  cases hp : s.seq.pos <;> simp [SeqPos.owner, hp] at h <;> simp only [plisStep, hp]
  case plisWait => exact .of_waitTick (by simp [hp, SeqPos.awaitsTick]) ⟨_, rfl⟩
  case plisVersion => exact ⟨_, .periphLoad _, _, rfl⟩
  case plisExtWrite | plisInitWrite => exact ⟨_, .periphStore _ _ _, _, rfl⟩
  case plisExtRead | plisInitRead =>
    exact ⟨_, .periphLoad _, (hcheck _ _ _).trans (onlySeq_plisAgain ⟨_, rfl⟩)⟩
  case plisAliasWrite => exact ⟨_, .periphStore _ _ _, onlySeq_plisAgain ⟨_, rfl⟩⟩
  case plisAliasRead =>
    exact ⟨_, .periphLoad _, (hcheck _ _ _).trans (onlySeq_plisAgain (onlySeq_plisRepetitionDone _))⟩

theorem dataBus_isCall (h : s.seq.pos.owner = some .dataBus) : IsCall s (dataBusStep s) := by
  cases hp : s.seq.pos <;> simp [SeqPos.owner, hp] at h <;> simp only [dataBusStep, hp]
  case dbEnable => exact ⟨_, .extAccess _, _, rfl⟩
  case dbWrite => exact ⟨_, .periphStore _ _ _, _, rfl⟩
  case dbReadBack | dbReadPaired => exact ⟨_, .periphLoad _, _, rfl⟩
  case dbSettle => exact OnlySeq.isCall ⟨_, rfl⟩
  case dbWdt => exact ⟨_, .drive _, onlySeq_dbNext _⟩
  case dbDisable => exact ⟨_, .extAccess _, onlySeq_endBody _⟩

theorem twoRam_isCall (h : s.seq.pos.owner = some .twoRam) : IsCall s (twoRamStep s) := by
  cases hp : s.seq.pos <;> simp [SeqPos.owner, hp] at h <;> simp only [twoRamStep, hp]
  case trWait => exact .of_waitTick (by simp [hp, SeqPos.awaitsTick]) ⟨_, rfl⟩
  case trImmWrite => exact ⟨_, .periphStore _ _ _, _, rfl⟩
  case trDelWrite =>
    exact ⟨_, .periphStore _ _ _, OnlySeq.trans (t := ramWriteNext s) ⟨_, rfl⟩ (onlySeq_ramAgain ⟨_, rfl⟩)⟩
  case trImmRead =>
    exact ⟨_, .periphLoad _, OnlySeq.trans (t := ramCheck _ _ s) ⟨_, rfl⟩ (onlySeq_ramAgain ⟨_, rfl⟩)⟩
  case trDelRead =>
    exact ⟨_, .periphLoad _, OnlySeq.trans (t := stepG (ramCheck _ _ s)) ⟨_, rfl⟩ (onlySeq_ramAgain ⟨_, rfl⟩)⟩
  case trImmWdt => exact ⟨_, .drive _, _, rfl⟩
  case trDelWdt => exact ⟨_, .drive _, onlySeq_ramTickAt _ _⟩

theorem fram_isCall (h : s.seq.pos.owner = some .fram) : IsCall s (framStep s) := by
  cases hp : s.seq.pos <;> simp [SeqPos.owner, hp] at h <;> simp only [framStep, hp]
  case frEnable => exact ⟨_, .flashWindow _, _, rfl⟩
  case frDisable => exact ⟨_, .flashWindow _, onlySeq_endBody _⟩
  case frIdentify => exact .of_request (op := 0x01) ⟨_, rfl⟩ rfl
  case frErase => exact .of_request (op := 0x02) ⟨_, rfl⟩ rfl
  case frProgram => exact .of_request (op := 0x03) ⟨_, rfl⟩ rfl
  case frRead | frVerify => exact .of_request (op := 0x05) ⟨_, rfl⟩ rfl
  case frBatchReset => exact .of_request (op := 0x06) ⟨_, rfl⟩ rfl
  case frIdentifyDone => exact (onlySeq_whenDone (onlySeq_framIdentified s)).isCall
  case frEraseDone | frProgramDone | frReadDone | frVerifyDone => exact (onlySeq_whenDone ⟨_, rfl⟩).isCall
  case frBatchResetDone => exact (onlySeq_whenDone (onlySeq_framBatchDone s)).isCall
  case frEraseWdt => exact ⟨_, .drive _, onlySeq_framErased _⟩
  case frWriteWdt => exact ⟨_, .drive _, onlySeq_framWritten _⟩
  case frVerifyWdt => exact ⟨_, .drive _, onlySeq_framVerified _⟩

/-- A step of any body, in any state: at most one primitive call, then writes of SEQ's registers. -/
theorem bodyStep_isCall (self : TestId) (s : State) : IsCall s (bodyStep self s) := by
  by_cases hown : s.seq.pos.owner = some self
  · cases self
    case error => cases hp : s.seq.pos <;> simp [SeqPos.owner, hp] at hown
    case soutBus => exact soutBus_isCall hown
    case plisRegisters => exact plis_isCall hown
    case dataBus => exact dataBus_isCall hown
    case fram => exact fram_isCall hown
    case twoRam => exact twoRam_isCall hown
    case extBus => exact extBus_isCall hown
  · exact bodyStep_foreign hown ▸ sharedStep_isCall self s

end

end Sys2Proof.Machine
end

section
/-! PROOFS. What a turn of each agent leaves of FCE's registers, the tick flag and the byte spaces; the statements of
10_state.md but SEQ's invariant. -/

namespace Sys2Proof.Machine

section
variable {s t u : State}

/-! ### The core's turn -/

/-- A turn of the core: a row of the phase table while FCE is busy, else a step of the body of the test in `cur`. -/
theorem core_cases (h : agentStep .core s = .next t) :
    (s.fce.phase ≠ .idle ∧ IsRow s t) ∨
    (s.fce.phase = .idle ∧ ∃ self, s.seq.cur = TestId.code self ∧ t = bodyStep self s) := by
  by_cases hidle : s.fce.phase = .idle
  · exact .inr ⟨hidle, core_idle_next s t hidle h⟩
  · exact .inl ⟨hidle, fceStep_row hidle (core_busy s hidle ▸ h)⟩

/-- A row of the phase table changes nothing but FCE's registers, DEV, the draw count and the bus trace. -/
theorem IsRow.fceOnly (h : IsRow s t) : ∃ e, FceOnly s [e] t := by
  obtain ⟨u, f, hcall, -, rfl⟩ := h
  cases hcall with
  | store a d => exact ⟨_, (storeRow s a d fun _ => f).1⟩
  | load a => exact ⟨_, (loadRow s a fun _ => f).1⟩

/-- FCE's registers after a row. -/
theorem IsRow.writes (h : IsRow s t) : s.fce.RowWrites s.cfg.toParams t.fce := by
  obtain ⟨u, f, -, hwrites, rfl⟩ := h
  exact hwrites

/-- A body's step leaves FCE's registers alone but where it presents a request to an idle FCE. -/
theorem IsCall.fce (h : IsCall s t) :
    t.fce = s.fce ∨ s.fce.phase = .idle ∧ ∃ op o, t.fce = acceptance s.cfg.toParams op o s.fce := by
  obtain ⟨u, hcall, q, rfl⟩ := h
  cases hcall with
  | request op o hidle => exact .inr ⟨hidle, op, o, rfl⟩
  | _ => exact .inl (by simp)

/-- No step of a body writes `buf` or `id_valid`. -/
theorem IsCall.buf_idValid (h : IsCall s t) : t.fce.buf = s.fce.buf ∧ t.fce.idValid = s.fce.idValid := by
  obtain hsame | ⟨-, op, o, haccepted⟩ := h.fce
  · simp [hsame]
  · obtain ⟨hbuf, hid, -⟩ := acceptance_keeps s.cfg.toParams op o s.fce
    simp [haccepted, hbuf, hid]

/-- A body's step touches the tick flag only at a `WaitTick`, where it clears it and counts one tick. -/
theorem IsCall.tick (h : IsCall s t) :
    (t.cycleFlag = s.cycleFlag ∧ t.ticksConsumed = s.ticksConsumed) ∨
    (s.seq.pos.awaitsTick = true ∧ t.cycleFlag = false ∧ t.ticksConsumed = s.ticksConsumed + 1) := by
  obtain ⟨u, hcall, q, rfl⟩ := h
  cases hcall with
  | tick hwaits => exact .inr ⟨hwaits, rfl, rfl⟩
  | _ => exact .inl (by simp)

/-! ### A requester's turn -/

/-- What a `Start` makes of FCE's registers, accepted or ignored. -/
theorem request_keeps {c : Params} {op : Byte} {o : Operands} {f g : Fce}
    (hidle : f.phase = .idle → g = acceptance c op o f) (hbusy : f.phase ≠ .idle → g = f) :
    g.buf = f.buf ∧ g.idValid = f.idValid ∧ (g.phase ≠ .idle ∨ g.done = true) := by
  by_cases hp : f.phase = .idle
  · exact hidle hp ▸ acceptance_keeps c op o f
  · simp [hbusy hp, hp]

/-- No turn of a requester writes `id_valid`. -/
theorem bench_idValid (h : agentStep .bench s = .next t) : t.fce.idValid = s.fce.idValid := by
  obtain ⟨op, o, rest, -, g, rfl, hidle, hbusy⟩ | ⟨i, d, rest, -, -, rfl⟩ | ⟨rest, -, rfl⟩ | ⟨-, rfl⟩ := bench_next s t h
  · exact (request_keeps hidle hbusy).2.1
  all_goals rfl

/-- A requester writes `buf` only as it says. -/
theorem bench_buf (h : agentStep .bench s = .next t) :
    t.fce.buf = s.fce.buf ∨ ∃ i d rest, s.bench = .bufWrite i d :: rest ∧ t.fce.buf = s.fce.buf.write i d := by
  obtain ⟨op, o, rest, -, g, rfl, hidle, hbusy⟩ | ⟨i, d, rest, hb, -, rfl⟩ | ⟨rest, -, rfl⟩ | ⟨-, rfl⟩ := bench_next s t h
  · exact .inl (request_keeps hidle hbusy).1
  · exact .inr ⟨i, d, rest, hb, rfl⟩
  all_goals exact .inl rfl

/-- A requester's turn leaves SEQ's registers, the tick flag, the environment and the parameters alone. -/
theorem bench_frame (h : agentStep .bench s = .next t) :
    t.seq = s.seq ∧ t.cycleFlag = s.cycleFlag ∧ t.extEn = s.extEn ∧ t.dev = s.dev ∧ t.periph = s.periph ∧ t.cfg = s.cfg := by
  obtain ⟨op, o, rest, -, g, rfl, -⟩ | ⟨i, d, rest, -, -, rfl⟩ | ⟨rest, -, rfl⟩ | ⟨-, rfl⟩ := bench_next s t h <;> simp

end

/-! ### The byte spaces -/

/-- The array of the reference device is in canonical form. -/
def Device.canonical : Device → Prop
  | .oracle _ => True
  | .refDev r => r.arr.wf

/-- The cells of PERIPH are in canonical form. -/
def Periph.canonical : Periph → Prop
  | .oracle _ => True
  | .cells m => m.wf

theorem memoryInv_iff (s : State) : MemoryInv s ↔ s.fce.buf.wf ∧ s.dev.canonical ∧ s.periph.canonical := Iff.rfl

namespace RefDev

/-- A store that begins no program leaves the array alone. -/
theorem storeCommand_arr {r : RefDev} (h : r.cpos ≠ .pgmw) (c : Params) (a : Nat) (d : Byte) :
    (r.storeCommand c a d).arr = r.arr := by
  by_cases hreset : d = 0xF0
  · simp [storeCommand, h, hreset, toRead]
  · cases hc : r.cpos <;> simp only [storeCommand, hc, hreset, and_false, if_false]
    case p5 =>
      split_ifs
      · split <;> rfl
      · rfl
    case pgmw => exact absurd hc h
    all_goals split_ifs <;> rfl

theorem startProgram_wf {r : RefDev} (h : r.arr.wf) (a : Nat) (d : Byte) : (r.startProgram a d).arr.wf := by
  simp only [startProgram]
  split_ifs
  · exact Memory.wf_write h _ _
  · exact h

theorem storeCommand_wf {r : RefDev} (h : r.arr.wf) (c : Params) (a : Nat) (d : Byte) : (r.storeCommand c a d).arr.wf := by
  by_cases hpgmw : r.cpos = .pgmw
  · simpa [storeCommand, hpgmw] using startProgram_wf h a d
  · exact (storeCommand_arr hpgmw c a d).symm ▸ h

theorem store_wf {r : RefDev} (h : r.arr.wf) (c : Params) (a : Nat) (d : Byte) : (r.store c a d).arr.wf := by
  unfold store
  split
  case h_1 | h_2 => exact storeCommand_wf h c a d
  case h_3 | h_4 => exact h
  case h_5 => split_ifs <;> exact h

/-- A load changes the array only where it ends a program or an erase. -/
theorem load_wf {r : RefDev} (h : r.arr.wf) (c : Params) (a : Nat) : (r.load c a).2.arr.wf := by
  unfold load
  split
  case h_1 | h_2 | h_4 => exact h
  case h_3 =>
    unfold loadProg
    split_ifs
    · exact h
    · exact h
    · exact h
    · exact Memory.wf_write h _ _
  case h_5 =>
    simp only [loadErase]
    split_ifs
    · exact h
    · exact h
    · exact h
    · exact Memory.wf_erase h _ _

end RefDev

section
variable {s t : State}

/-- A bus cycle keeps the array canonical. -/
theorem BusCall.dev_canonical {u : State} (hcall : BusCall s u) (h : s.dev.canonical) : u.dev.canonical := by
  cases hcall with
  | store a d =>
    rw [busWrite_dev]
    split_ifs
    · cases hd : s.dev with
      | oracle answers => trivial
      | refDev r => exact RefDev.store_wf (by simpa [Device.canonical, hd] using h) _ a d
    · exact h
  | load a =>
    rw [busRead_dev]
    obtain hsame | ⟨d, rest, -, hrest⟩ | ⟨r, hr, hload⟩ := devAfterLoad_cases s a
    · exact hsame ▸ h
    · exact hrest ▸ trivial
    · exact hload ▸ RefDev.load_wf (by simpa [Device.canonical, hr] using h) _ a

theorem IsRow.keeps_memoryInv (hrow : IsRow s t) (h : MemoryInv s) : MemoryInv t := by
  obtain ⟨u, f, hcall, hwrites, rfl⟩ := hrow
  obtain ⟨hbuf, hdev, hperiph⟩ := h
  refine ⟨hwrites.buf ▸ hbuf, hcall.dev_canonical hdev, ?_⟩
  cases hcall <;> simpa using hperiph

/-- A store to PERIPH keeps the cells canonical. -/
theorem Periph.store_canonical {p : Periph} (h : p.canonical) (a : Nat) (d : Byte) : (p.store a d).canonical := by
  cases p with
  | oracle answers => trivial
  | cells m => exact Memory.wf_write h a d

/-- A load from PERIPH keeps the cells canonical. -/
theorem periphAfterLoad_canonical (h : s.periph.canonical) : (periphAfterLoad s).periph.canonical := by
  unfold periphAfterLoad
  split
  · exact h
  · trivial
  · exact h

theorem SeqCall.dev {u : State} (hcall : SeqCall s u) : u.dev = s.dev := by
  cases hcall <;> simp

theorem SeqCall.periph_canonical {u : State} (hcall : SeqCall s u) (h : s.periph.canonical) : u.periph.canonical := by
  cases hcall with
  | periphStore a d e => exact Periph.store_canonical h a d
  | periphLoad e => simpa using periphAfterLoad_canonical h
  | _ => simpa using h

theorem IsCall.keeps_memoryInv (hcall : IsCall s t) (h : MemoryInv s) : MemoryInv t := by
  obtain ⟨hbuf, hdev, hperiph⟩ := h
  refine ⟨hcall.buf_idValid.1 ▸ hbuf, ?_⟩
  obtain ⟨u, hcall, q, rfl⟩ := hcall
  exact ⟨hcall.dev ▸ hdev, hcall.periph_canonical hperiph⟩

theorem bench_keeps_memoryInv (hstep : agentStep .bench s = .next t) (h : MemoryInv s) : MemoryInv t := by
  obtain ⟨hbuf, hdev, hperiph⟩ := h
  obtain ⟨-, -, -, hdev', hperiph', -⟩ := bench_frame hstep
  refine ⟨?_, hdev' ▸ hdev, hperiph' ▸ hperiph⟩
  obtain hsame | ⟨i, d, rest, -, hwrite⟩ := bench_buf hstep
  · exact hsame ▸ hbuf
  · exact hwrite ▸ Memory.wf_write hbuf i d

/-- A reset lists nothing in `buf` and leaves the environment what it holds. -/
theorem hwReset_memoryInv (h : MemoryInv s) : MemoryInv (hwReset s) := by
  obtain ⟨-, hdev, hperiph⟩ := h
  exact ⟨Memory.wf_nil, hdev, hperiph⟩

theorem agentStep_keeps_memoryInv {a : Agent} (h : MemoryInv s) (hstep : agentStep a s = .next t) : MemoryInv t := by
  cases a with
  | core =>
    obtain ⟨-, hrow⟩ | ⟨-, self, -, rfl⟩ := core_cases hstep
    · exact hrow.keeps_memoryInv h
    · exact (bodyStep_isCall self s).keeps_memoryInv h
  | bench => exact bench_keeps_memoryInv hstep h
  | tick => cases hstep; exact h
  | resetLine => cases hstep; exact hwReset_memoryInv h

theorem afterTurn_memoryInv (h : MemoryInv s) : MemoryInv (afterTurn s) := by
  simpa [memoryInv_iff] using h

end

/-! ### The obligations -/

/-- Settles O54: by agent; every store to a byte space keeps the canonical form. -/
theorem stepKeepsMemoryCanonical : Obligations.StepKeepsMemoryCanonical := by
  unfold Obligations.StepKeepsMemoryCanonical
  intro s t hinv hstep
  exact agentStep_keeps_memoryInv (afterTurn_memoryInv hinv) hstep

/-- Settles O5: by agent; of a body's calls only the clear of a `WaitTick` writes the flag. -/
theorem onlyWaitTickClearsTheFlag : Obligations.OnlyWaitTickClearsTheFlag := by
  unfold Obligations.OnlyWaitTickClearsTheFlag
  refine ⟨fun _ => rfl, fun a s t hstep hset hclear => ?_⟩
  cases a with
  | core =>
    refine .inr ?_
    obtain ⟨-, hrow⟩ | ⟨hidle, self, -, rfl⟩ := core_cases hstep
    · obtain ⟨e, f, dev, draws, rfl⟩ := hrow.fceOnly
      simp [hset] at hclear
    · obtain ⟨hflag, -⟩ | ⟨hwaits, -, hticks⟩ := (bodyStep_isCall self s).tick
      · simp [hflag, hset] at hclear
      · exact ⟨rfl, hidle, hwaits, hticks⟩
  | bench =>
    obtain ⟨-, hflag, -⟩ := bench_frame hstep
    simp [hflag, hset] at hclear
  | tick => cases hstep; simp at hclear
  | resetLine => exact .inl rfl

/-- Settles O30: by agent; of FCE's rows only IDR2 writes `id_valid`, and no request does. -/
theorem idValidRecordsTheIdentity : Obligations.IdValidRecordsTheIdentity := by
  unfold Obligations.IdValidRecordsTheIdentity
  intro s t hstep
  unfold step at hstep
  cases hturn : turn s with
  | core =>
    rw [hturn] at hstep
    obtain ⟨-, hrow⟩ | ⟨-, self, -, rfl⟩ := core_cases hstep
    · obtain hsame | ⟨hp, hrecords⟩ := hrow.writes.idValid
      · exact .inl (by simpa using hsame)
      · exact .inr (.inr ⟨rfl, by simpa using hp, by simpa using hrecords⟩)
    · exact .inl (by simpa using (bodyStep_isCall self (afterTurn s)).buf_idValid.2)
  | bench =>
    rw [hturn] at hstep
    exact .inl (by simpa using bench_idValid hstep)
  | tick =>
    rw [hturn] at hstep
    cases hstep
    exact .inl (by simp)
  | resetLine =>
    rw [hturn] at hstep
    cases hstep
    exact .inr (.inl ⟨rfl, rfl⟩)

/-- Settles O32: a requester's write is one store to `buf`; no row, body or `Start` writes it. -/
theorem bufferIsTheRequesters : Obligations.BufferIsTheRequesters := by
  unfold Obligations.BufferIsTheRequesters
  refine ⟨fun s i d rest hbench => ⟨fun hlt => ?_, fun hge => ?_⟩, fun a s t x hstep hdiffers => ?_⟩
  · exact ⟨{ s with bench := rest, fce := { s.fce with buf := s.fce.buf.write i d } },
      (bench_bufWrite hbench).trans (if_pos hlt), Memory.read_write_same _ _ _,
      fun a ha => Memory.read_write_other _ _ _ _ ha, rfl⟩
  · exact (bench_bufWrite hbench).trans (if_neg (Nat.not_lt.mpr hge))
  · unfold bufByte at hdiffers
    cases a with
    | core =>
      obtain ⟨-, hrow⟩ | ⟨-, self, -, rfl⟩ := core_cases hstep
      · exact absurd (by rw [hrow.writes.buf]) hdiffers
      · exact absurd (by rw [(bodyStep_isCall self s).buf_idValid.1]) hdiffers
    | bench =>
      obtain hsame | ⟨i, d, rest, hbench, hwrite⟩ := bench_buf hstep
      · exact absurd (by rw [hsame]) hdiffers
      · obtain rfl : x = i := by
          by_contra hx
          exact hdiffers (by rw [hwrite, Memory.read_write_other _ _ _ _ hx])
        exact .inr ⟨rfl, d, rest, hbench⟩
    | tick => cases hstep; exact absurd rfl hdiffers
    | resetLine => exact .inl rfl

/-- Settles O6: each value is that of the reset state; its first step is the entry of `SoutBus`. -/
theorem resetValues : Obligations.ResetValues := by
  unfold Obligations.ResetValues
  refine ⟨rfl, rfl, rfl, rfl, rfl, rfl, rfl, rfl, rfl, rfl, rfl, rfl, rfl, rfl, rfl, rfl, rfl, rfl, rfl, rfl, rfl, rfl,
    rfl, rfl, rfl, rfl, rfl, rfl, core_idle State.reset rfl, _, rfl, rfl, rfl⟩

/-- Settles O55: each call is `outDo` of its `OutCall`; a line is the exclusive or of its two bits. -/
theorem outputBusCalls : Obligations.OutputBusCalls := by
  unfold Obligations.OutputBusCalls
  intro s b
  exact ⟨rfl, rfl, rfl, rfl, fun i _ => by simp [physicalLines]⟩

end Sys2Proof.Machine
end

section
/-! PROOFS. SEQ's invariant under a body's step: one lemma for each body over the positions it owns. -/

namespace Sys2Proof.Machine

/-- SEQ's invariant for the test that is current. -/
structure SeqInvOf (test : TestId) (s : State) : Prop where
  cur : s.seq.cur = test.code
  owner : ∀ x, s.seq.pos.owner = some x → x = test
  ranges : s.seq.rangesOk s.cfg.toParams
  returns : s.seq.returnOk test
  foreign : test.checking = true → s.seq.pos ≠ .dispatch → s.seq.mask &&& ~~~maskBits test = 0
  window : s.seq.pos.windowOpen = true → s.winEn = true
  ext : s.extEn = s.seq.pos.extOpen
  awaits : s.seq.pos.awaitsDone = true → s.fce.busy = true ∨ s.fce.done = true

theorem seqInv_iff (s : State) : SeqInv s ↔ ∃ self, SeqInvOf self s := by
  constructor
  · rintro ⟨⟨self, hcur, howner, hranges, hreturns, hforeign⟩, hwindow, hext, hawaits⟩
    exact ⟨self, hcur, howner, hranges, hreturns, hforeign, hwindow, hext, hawaits⟩
  · rintro ⟨self, h⟩
    exact ⟨⟨self, h.cur, h.owner, h.ranges, h.returns, h.foreign⟩, h.window, h.ext, h.awaits⟩

theorem code_injective {x y : TestId} (h : x.code = y.code) : x = y := by
  cases x <;> cases y <;> simp [TestId.code] at h ⊢

/-! ### What the body of a test keeps at every position it goes on to -/

/-- `cur` is the test's code and `mask` has no bit its row of R105 leaves 0. -/
def Seq.runs (self : TestId) (q : Seq) : Prop :=
  q.cur = self.code ∧ (self.checking = true → q.mask &&& ~~~maskBits self = 0)

/-- A check sets only its own bit. -/
theorem Seq.runs.flag {self : TestId} {q : Seq} {bit : Byte} (h : q.runs self) (hbit : bit &&& ~~~maskBits self = 0)
    (failed : Bool) : Seq.runs self { q with mask := if failed then q.mask ||| bit else q.mask } := by
  obtain ⟨hcur, hforeign⟩ := h
  refine ⟨hcur, fun hchecking => ?_⟩
  cases failed
  · exact hforeign hchecking
  · simp [BitVec.and_or_distrib_right, hforeign hchecking, hbit]

section
variable {self : TestId} {s u t : State} {p : SeqPos}

/-- Inside a body. -/
theorem SeqInvOf.runs (h : SeqInvOf self s) (hpos : s.seq.pos ≠ .dispatch) : s.seq.runs self :=
  ⟨h.cur, fun hchecking => h.foreign hchecking hpos⟩

/-- The positions that hold SEQ for FCE are `Fram`'s. -/
theorem awaitsDone_owner (h : p.awaitsDone = true) : p.owner = some .fram := by
  cases p <;> simp [SeqPos.awaitsDone, SeqPos.owner] at h ⊢

/-- Going on at a position of the body. -/
theorem SeqInvOf.goesOn (hown : p.owner = some self) (hruns : u.seq.runs self)
    (hranges : Seq.rangesOk u.cfg.toParams { u.seq with pos := p }) (hwindow : p.windowOpen = true → u.winEn = true)
    (hext : u.extEn = p.extOpen) (hawaits : p.awaitsDone = true → u.fce.busy = true ∨ u.fce.done = true) :
    SeqInvOf self (goto p u) where
  cur := hruns.1
  owner x hx := Option.some.inj (hx.symm.trans hown)
  ranges := hranges
  returns := by
    cases p <;> trivial
  foreign hchecking _ := hruns.2 hchecking
  window := hwindow
  ext := hext
  awaits := hawaits

/-- Going on at a position of a body that needs neither the flash window and FCE nor external access. -/
theorem SeqInvOf.goesOnAway (hself : self ≠ .fram ∧ self ≠ .dataBus) (hown : p.owner = some self)
    (hruns : u.seq.runs self) (hranges : Seq.rangesOk u.cfg.toParams { u.seq with pos := p }) (hext : u.extEn = false) :
    SeqInvOf self (goto p u) := by
  obtain ⟨hfram, hdataBus⟩ := hself
  refine .goesOn hown hruns hranges ?_ ?_ fun h => ?_
  · simp [SeqPos.windowOpen, hown, hfram]
  · simp [SeqPos.extOpen, hown, hdataBus, hext]
  · exact absurd (Option.some.inj (hown.symm.trans (awaitsDone_owner h))) hfram

/-- Going on at a position bodies share, which needs neither enable. -/
theorem SeqInvOf.goesOnShared (hown : p.owner = none) (hruns : u.seq.runs self)
    (hreturns : Seq.returnOk self { u.seq with pos := p }) (hext : u.extEn = false) : SeqInvOf self (goto p u) where
  cur := hruns.1
  owner x hx := absurd (hown.symm.trans hx) nofun
  ranges := by
    cases p <;> simp [SeqPos.owner] at hown <;> trivial
  returns := hreturns
  foreign hchecking _ := hruns.2 hchecking
  window h := by simp [SeqPos.windowOpen, hown] at h
  ext := by simpa [SeqPos.extOpen, hown] using hext
  awaits h := absurd (hown.symm.trans (awaitsDone_owner h)) nofun

/-- The end of a body without a check (R158, R164). -/
theorem SeqInvOf.returns_noError (hchecking : self.checking = false) (hcur : u.seq.cur = self.code)
    (hext : u.extEn = false) : SeqInvOf self (goto (.ret .noError) u) :=
  .goesOnShared rfl ⟨hcur, by simp [hchecking]⟩ (by simp [Seq.returnOk, hchecking]) hext

/-- The end of a checking body (R155). -/
theorem SeqInvOf.endBody (hchecking : self.checking = true) (hruns : u.seq.runs self) (hext : u.extEn = false) :
    SeqInvOf self (endBody u) := by
  unfold Machine.endBody
  split_ifs with hmask
  · exact .goesOnShared rfl hruns (.inl ⟨hchecking, rfl, hmask⟩) hext
  · exact .goesOnShared rfl hruns (by simpa [Seq.returnOk, hchecking] using hmask) hext

/-- A `WaitTick` keeps what its going on keeps. -/
theorem SeqInvOf.waitTick {go : State → State} (h : SeqInvOf self s) (hgo : SeqInvOf self (go (consumeTick s))) :
    SeqInvOf self (waitTick go s) := by
  unfold Machine.waitTick
  split_ifs
  · exact hgo
  · exact h

/-- Waiting for `done` keeps what going on keeps. -/
theorem SeqInvOf.whenDone {go : State → State} (h : SeqInvOf self s) (hgo : SeqInvOf self (go s)) :
    SeqInvOf self (whenDone go s) := by
  unfold Machine.whenDone
  split_ifs
  · exact hgo
  · exact h

end

/-! ### `SoutBus` and `ExtBus` -/

section
variable {s u : State}

theorem soutBus_keeps (h : SeqInvOf .soutBus s) (hown : s.seq.pos.owner = some .soutBus) :
    SeqInvOf .soutBus (soutBusStep s) := by
  have hruns := h.runs (by rintro e; simp [e, SeqPos.owner] at hown)
  have hranges := h.ranges
  have hext := h.ext
  cases hp : s.seq.pos <;> simp [SeqPos.owner, hp] at hown <;>
    simp only [Seq.rangesOk, hp] at hranges <;> simp only [soutBusStep, hp] <;> rw [hp] at hext
  case soutSet => exact .goesOnAway (by simp) rfl hruns hranges hext
  case soutWait =>
    refine h.waitTick ?_
    unfold soutNext
    obtain ⟨-, hpass⟩ := hranges
    split_ifs with hlast hpasses
    · exact .goesOnAway (by simp) rfl hruns ⟨Nat.succ_lt_succ hlast, hpass⟩ hext
    · exact .goesOnAway (by simp) rfl hruns ⟨by simp, Nat.succ_lt_succ hpasses⟩ hext
    · exact .returns_noError rfl hruns.1 hext

/-- `ExtBus` at an element of the pattern or at its return. -/
theorem extBusAt_keeps (k : Nat) (hcur : u.seq.cur = TestId.extBus.code) (hext : u.extEn = false) :
    SeqInvOf .extBus (extBusAt k u) := by
  unfold extBusAt
  split_ifs with hk
  · exact .goesOnAway (by simp) rfl ⟨hcur, nofun⟩ (by simpa [Seq.rangesOk] using hk) hext
  · exact .returns_noError rfl hcur hext

theorem extBus_keeps (h : SeqInvOf .extBus s) (hown : s.seq.pos.owner = some .extBus) :
    SeqInvOf .extBus (extBusStep s) := by
  have hranges := h.ranges
  have hext := h.ext
  cases hp : s.seq.pos <;> simp [SeqPos.owner, hp] at hown <;>
    simp only [Seq.rangesOk, hp] at hranges <;> simp only [extBusStep, hp] <;> rw [hp] at hext
  case ebDrive => exact .goesOnAway (by simp) rfl ⟨h.cur, nofun⟩ hranges hext
  case ebWait => exact h.waitTick (extBusAt_keeps _ h.cur hext)

/-! ### `PlisRegisters` -/

theorem plisCheck_runs {reg : Handle} {want bit : Byte} (hruns : s.seq.runs .plisRegisters)
    (hbit : bit &&& ~~~maskBits .plisRegisters = 0) : (plisCheck reg want bit s).seq.runs .plisRegisters := by
  rw [plisCheck_seq]
  exact hruns.flag hbit _

@[simp] theorem plisCheck_extEn (reg : Handle) (want bit : Byte) (s : State) :
    (plisCheck reg want bit s).extEn = s.extEn := by simp [plisCheck]

/-- A loop of `PlisRegisters`: its next iteration or its end. -/
theorem plisAgain_keeps {count : Nat} {again : SeqPos} {done : State → State} (hown : again.owner = some .plisRegisters)
    (hruns : u.seq.runs .plisRegisters)
    (hranges : u.seq.i + 1 < count → Seq.rangesOk u.cfg.toParams { u.seq with i := u.seq.i + 1, pos := again })
    (hext : u.extEn = false) (hdone : SeqInvOf .plisRegisters (done u)) :
    SeqInvOf .plisRegisters (plisAgain count again done u) := by
  unfold plisAgain
  split_ifs with hi
  · exact .goesOnAway (by simp) hown hruns (hranges hi) hext
  · exact hdone

theorem plisLoop_keeps (hown : p.owner = some .plisRegisters)
    (hruns : u.seq.runs .plisRegisters) (hranges : Seq.rangesOk u.cfg.toParams { u.seq with i := 0, pos := p })
    (hext : u.extEn = false) : SeqInvOf .plisRegisters (plisLoop p u) :=
  .goesOnAway (by simp) hown hruns hranges hext

theorem plisRepetitionDone_keeps (hruns : u.seq.runs .plisRegisters) (hext : u.extEn = false) :
    SeqInvOf .plisRegisters (plisRepetitionDone u) := by
  unfold plisRepetitionDone
  split_ifs with hrep
  · exact .goesOnAway (by simp) rfl hruns (Nat.succ_lt_succ hrep) hext
  · exact .endBody rfl hruns hext

theorem plis_keeps (h : SeqInvOf .plisRegisters s) (hown : s.seq.pos.owner = some .plisRegisters) :
    SeqInvOf .plisRegisters (plisStep s) := by
  have hruns := h.runs (by rintro e; simp [e, SeqPos.owner] at hown)
  have hranges := h.ranges
  have hext : s.extEn = false := h.ext.trans (by simp [SeqPos.extOpen, hown])
  have hcheck (reg want bit) (hbit : bit &&& ~~~maskBits .plisRegisters = 0) :
      (plisCheck reg want bit s).seq.runs .plisRegisters := plisCheck_runs hruns hbit
  cases hp : s.seq.pos <;> simp [SeqPos.owner, hp] at hown <;>
    simp only [Seq.rangesOk, hp] at hranges <;> simp only [plisStep, hp]
  case plisWait => exact h.waitTick (.goesOnAway (by simp) rfl hruns hranges hext)
  case plisVersion =>
    exact plisLoop_keeps rfl (hcheck _ _ _ (by decide)) (by simpa [Seq.rangesOk, plisCheck_seq] using hranges)
      (by simpa using hext)
  case plisExtWrite | plisInitWrite =>
    exact .goesOnAway (by simp) rfl (by simpa [Seq.runs, plisWalk] using hruns)
      (by simpa [Seq.rangesOk, plisWalk] using hranges) (by simpa [plisWalk] using hext)
  case plisExtRead | plisInitRead =>
    obtain ⟨-, hrep, -⟩ := hranges
    refine plisAgain_keeps rfl (hcheck _ _ _ (by decide)) ?_ (by simpa using hext)
      (plisLoop_keeps rfl (hcheck _ _ _ (by decide)) ?_ (by simpa using hext))
    · simpa [Seq.rangesOk, plisCheck_seq] using fun hnext => ⟨hnext, hrep⟩
    · simpa [Seq.rangesOk, plisCheck_seq] using hrep
  case plisAliasWrite =>
    obtain ⟨-, hrep⟩ := hranges
    refine plisAgain_keeps rfl (by simpa using hruns) ?_ (by simpa using hext)
      (plisLoop_keeps rfl (by simpa using hruns) ?_ (by simpa using hext))
    · simpa [Seq.rangesOk] using fun hnext => ⟨hnext, hrep⟩
    · simpa [Seq.rangesOk] using hrep
  case plisAliasRead =>
    obtain ⟨-, hrep⟩ := hranges
    refine plisAgain_keeps rfl (hcheck _ _ _ (by decide)) ?_ (by simpa using hext)
      (plisRepetitionDone_keeps (hcheck _ _ _ (by decide)) (by simpa using hext))
    simpa [Seq.rangesOk, plisCheck_seq] using fun hnext => ⟨hnext, hrep⟩

end

end Sys2Proof.Machine
end

section
/-! PROOFS. SEQ's invariant under the steps of `DataBus`, `TwoRam` and `Fram`. -/

namespace Sys2Proof.Machine

section
variable {s u t : State} {p : SeqPos}

/-! ### `DataBus` -/

theorem dbCheckWritten_runs (hruns : s.seq.runs .dataBus) : (dbCheckWritten s).seq.runs .dataBus := by
  simpa [dbCheckWritten, Seq.runs] using hruns.flag (bit := 0x01) (by decide) (periphAnswer s.cfg.dbWrReg s != s.seq.v)

theorem dbCheckPaired_runs (hruns : s.seq.runs .dataBus) : (dbCheckPaired s).seq.runs .dataBus := by
  simpa [dbCheckPaired, Seq.runs] using hruns.flag (bit := 0x02) (by decide)
    (dbPairedDiffers s.cfg.toParams s.seq.v (periphAnswer s.cfg.dbRdReg s))

/-- A position of `DataBus` after `ExtAccess(1)`. -/
theorem SeqInvOf.goesOnData (hown : p.owner = some .dataBus) (hpos : p ≠ .dbEnable) (hruns : u.seq.runs .dataBus)
    (hranges : Seq.rangesOk u.cfg.toParams { u.seq with pos := p }) (hext : u.extEn = true) :
    SeqInvOf .dataBus (goto p u) :=
  .goesOn hown hruns hranges (by simp [SeqPos.windowOpen, hown]) (by simp [SeqPos.extOpen, hown, hpos, hext])
    fun h => by simp [awaitsDone_owner h] at hown

theorem dbNext_keeps (hruns : u.seq.runs .dataBus) (hext : u.extEn = true) : SeqInvOf .dataBus (dbNext u) := by
  unfold dbNext
  split_ifs with hv
  · refine .goesOnData rfl (by simp) hruns ?_ hext
    have hnext : (u.seq.v + 1).toNat = u.seq.v.toNat + 1 := by
      rw [BitVec.toNat_add]
      simp
      omega
    simp only [Seq.rangesOk, State.onSeq_seq, hnext]
    omega
  · exact .goesOnData rfl (by simp) hruns trivial hext

theorem dataBus_keeps (h : SeqInvOf .dataBus s) (hown : s.seq.pos.owner = some .dataBus) :
    SeqInvOf .dataBus (dataBusStep s) := by
  have hruns := h.runs (by rintro e; simp [e, SeqPos.owner] at hown)
  have hext (hpos : s.seq.pos ≠ .dbEnable) : s.extEn = true := h.ext.trans (by simp [SeqPos.extOpen, hown, hpos])
  have hranges := h.ranges
  cases hp : s.seq.pos <;> simp [SeqPos.owner, hp] at hown <;>
    simp only [Seq.rangesOk, hp] at hranges <;> simp only [dataBusStep, hp] <;> simp [hp] at hext
  case dbEnable => exact .goesOnData rfl (by simp) hruns (by simp [Seq.rangesOk]) rfl
  case dbWrite => exact .goesOnData rfl (by simp) hruns hranges hext
  case dbReadBack =>
    exact .goesOnData rfl (by simp) (dbCheckWritten_runs hruns) (by simpa [Seq.rangesOk, dbCheckWritten] using hranges)
      (by simpa [dbCheckWritten] using hext)
  case dbReadPaired =>
    exact .goesOnData rfl (by simp) (dbCheckPaired_runs hruns) (by simpa [Seq.rangesOk, dbCheckPaired] using hranges)
      (by simpa [dbCheckPaired] using hext)
  case dbSettle => exact .goesOnData rfl (by simp) hruns hranges hext
  case dbWdt => exact dbNext_keeps hruns hext
  case dbDisable => exact .endBody rfl hruns rfl

/-! ### `TwoRam` -/

theorem ramCheck_seq (want bit : Byte) (s : State) :
    (ramCheck want bit s).seq =
      { s.seq with mask := if ramAnswer s.seq.k s != want then s.seq.mask ||| bit else s.seq.mask } := by
  simp [ramCheck]

theorem ramCheck_runs {want bit : Byte} (hruns : s.seq.runs .twoRam) (hbit : bit &&& ~~~maskBits .twoRam = 0) :
    (ramCheck want bit s).seq.runs .twoRam := by
  rw [ramCheck_seq]
  exact hruns.flag hbit _

@[simp] theorem ramCheck_extEn (want bit : Byte) (s : State) : (ramCheck want bit s).extEn = s.extEn := by
  simp [ramCheck]

@[simp] theorem ramCheck_cfg (want bit : Byte) (s : State) : (ramCheck want bit s).cfg = s.cfg := by
  simp [ramCheck]

/-- A loop over the RAM region begins at its first offset or, for an empty region, is over. -/
theorem ramLoop_keeps {head rest : SeqPos} (hhead : head.owner = some .twoRam) (hrest : rest.owner = some .twoRam)
    (hruns : u.seq.runs .twoRam) (hext : u.extEn = false)
    (hranges : 0 < u.cfg.ramLen → Seq.rangesOk u.cfg.toParams { u.seq with k := 0, pos := head })
    (hend : Seq.rangesOk u.cfg.toParams { u.seq with k := 0, pos := rest }) :
    SeqInvOf .twoRam (ramLoop head rest u) := by
  unfold ramLoop
  split_ifs with hlen
  · exact .goesOnAway (by simp) hhead hruns (hranges hlen) hext
  · exact .goesOnAway (by simp) hrest hruns hend hext

/-- A loop over the RAM region: its next offset or its end. -/
theorem ramAgain_keeps {again : SeqPos} {done : State → State} (hown : again.owner = some .twoRam)
    (hruns : u.seq.runs .twoRam) (hext : u.extEn = false)
    (hranges : u.seq.k + 1 < u.cfg.ramLen → Seq.rangesOk u.cfg.toParams { u.seq with k := u.seq.k + 1, pos := again })
    (hdone : SeqInvOf .twoRam (done u)) : SeqInvOf .twoRam (ramAgain again done u) := by
  unfold ramAgain
  split_ifs with hk
  · exact .goesOnAway (by simp) hown hruns (hranges hk) hext
  · exact hdone

theorem ramTickAt_keeps (n : Nat) (hruns : u.seq.runs .twoRam) (hext : u.extEn = false) :
    SeqInvOf .twoRam (ramTickAt n u) := by
  unfold ramTickAt
  split_ifs with hn
  · exact .goesOnAway (by simp) rfl hruns (by simpa [Seq.rangesOk] using hn) hext
  · exact .endBody rfl hruns hext

theorem twoRam_keeps (h : SeqInvOf .twoRam s) (hown : s.seq.pos.owner = some .twoRam) :
    SeqInvOf .twoRam (twoRamStep s) := by
  have hruns := h.runs (by rintro e; simp [e, SeqPos.owner] at hown)
  have hranges := h.ranges
  have hext : s.extEn = false := h.ext.trans (by simp [SeqPos.extOpen, hown])
  cases hp : s.seq.pos <;> simp [SeqPos.owner, hp] at hown <;>
    simp only [Seq.rangesOk, hp] at hranges <;> simp only [twoRamStep, hp]
  case trWait =>
    exact h.waitTick (ramLoop_keeps rfl rfl hruns hext (fun hlen => ⟨hranges, hlen⟩) hranges)
  case trImmWrite => exact .goesOnAway (by simp) rfl hruns hranges hext
  case trImmRead =>
    obtain ⟨ht, -⟩ := hranges
    refine ramAgain_keeps rfl (ramCheck_runs hruns (by decide)) (by simpa using hext) ?_
      (.goesOnAway (by simp) rfl (ramCheck_runs hruns (by decide)) ?_ (by simpa using hext))
    · simpa [Seq.rangesOk, ramCheck_seq] using fun hnext => ⟨ht, hnext⟩
    · simpa [Seq.rangesOk, ramCheck_seq] using ht
  case trImmWdt => exact ramLoop_keeps rfl rfl hruns hext (fun hlen => ⟨hranges, hlen⟩) hranges
  case trDelWrite =>
    obtain ⟨ht, -⟩ := hranges
    exact ramAgain_keeps rfl hruns hext (fun hnext => ⟨ht, hnext⟩)
      (ramLoop_keeps rfl rfl hruns hext (fun hlen => ⟨ht, hlen⟩) ht)
  case trDelRead =>
    obtain ⟨ht, -⟩ := hranges
    have hchecked : (stepG (ramCheck (nextG s) 0x02 s)).seq.runs .twoRam :=
      ramCheck_runs (want := nextG s) (bit := 0x02) hruns (by decide)
    refine ramAgain_keeps rfl hchecked (by simpa [stepG] using hext) ?_
      (.goesOnAway (by simp) rfl hchecked ?_ (by simpa [stepG] using hext))
    · simpa [Seq.rangesOk, stepG, ramCheck_seq] using fun hnext => ⟨ht, hnext⟩
    · simpa [Seq.rangesOk, stepG, ramCheck_seq] using ht
  case trDelWdt => exact ramTickAt_keeps _ hruns hext

/-! ### `Fram` -/

/-- Inside `Fram` with the window enabled. -/
structure InFram (u : State) : Prop where
  runs : u.seq.runs .fram
  window : u.winEn = true
  ext : u.extEn = false

/-- A position of `Fram` that does not wait for FCE. -/
theorem InFram.goesOn (h : InFram u) (hown : p.owner = some .fram) (hwait : p.awaitsDone = false)
    (hranges : Seq.rangesOk u.cfg.toParams { u.seq with pos := p }) : SeqInvOf .fram (goto p u) :=
  .goesOn hown h.runs hranges (fun _ => h.window) (by simp [SeqPos.extOpen, hown, h.ext]) (by simp [hwait])

/-- A request presented to an idle FCE runs or has ended, so `Fram` may wait for it (R153). -/
theorem InFram.requests (p : SeqPos) (op : Byte) {o : Operands} (h : InFram u) (hidle : u.fce.phase = .idle)
    (hown : p.owner = some .fram) (hranges : Seq.rangesOk u.cfg.toParams { u.seq with pos := p })
    (hstep : exec (decodeReq op o) (goto p u) = .next t) : SeqInvOf .fram t := by
  rw [accept_idle op o _ (by simpa using hidle)] at hstep
  cases hstep
  obtain ⟨-, -, hruns⟩ := acceptance_keeps u.cfg.toParams op o u.fce
  exact .goesOn (u := { u with fce := acceptance u.cfg.toParams op o u.fce }) hown h.runs hranges (fun _ => h.window)
    (by simp [SeqPos.extOpen, hown, h.ext]) fun _ => hruns.imp_left (busy_eq _).mpr

/-- A check of the block that may abandon it. -/
theorem InFram.abortIf {bit : Byte} (h : InFram u) (hbit : bit &&& ~~~maskBits .fram = 0) (failed : Bool) :
    InFram (framAbortIf failed bit u) :=
  ⟨by simpa [framAbortIf, Seq.runs] using h.runs.flag hbit failed, by simpa [framAbortIf] using h.window,
    by simpa [framAbortIf] using h.ext⟩

theorem InFram.flagIf {bit : Byte} (h : InFram u) (hbit : bit &&& ~~~maskBits .fram = 0) (failed : Bool) :
    InFram (flagIf failed bit u) :=
  ⟨by simpa using h.runs.flag hbit failed, by simpa using h.window, by simpa using h.ext⟩

/-- A block index fits its register (R9, R33). -/
theorem block_toNat (c : Cfg) {b : Nat} (hb : b < c.numBlocks) : (BitVec.ofNat 8 b).toNat = b := by
  have := (cfgOk c).2.1.2.1
  rw [BitVec.toNat_ofNat]
  omega

theorem numBlocks_pos (c : Cfg) : 0 < c.numBlocks := (cfgOk c).2.1.1

/-- The block register counts on without wrap. -/
theorem block_next (c : Cfg) {b : Byte} (hb : b.toNat + 1 < c.numBlocks) : (b + 1).toNat = b.toNat + 1 := by
  have := (cfgOk c).2.1.2.1
  rw [BitVec.toNat_add]
  simp
  omega

theorem framWriteBlock_keeps (h : InFram u) {b : Nat} (hb : b < u.cfg.numBlocks) : SeqInvOf .fram (framWriteBlock b u) := by
  have hlt := block_toNat u.cfg hb
  unfold framWriteBlock framBlockAt
  split_ifs with hsize
  · exact InFram.goesOn ⟨h.runs, h.window, h.ext⟩ rfl rfl (by simp [Seq.rangesOk, hlt, hb, hsize])
  · exact InFram.goesOn ⟨h.runs, h.window, h.ext⟩ rfl rfl (by simp [Seq.rangesOk, hlt, hb])

/-- What `nextBlockWithBytes` finds is a block of the table with a byte. -/
theorem nextBlockWithBytes_some {c : Params} {b x : Nat} (h : nextBlockWithBytes c b = some x) :
    x < c.numBlocks ∧ 0 < blockSize c x := by
  unfold nextBlockWithBytes at h
  have hfound := List.find?_some h
  have hmem := List.mem_of_find?_eq_some h
  simp at hfound hmem
  exact ⟨hmem, hfound.2⟩

theorem framVerifyBlock_keeps (h : InFram u) (b : Nat) : SeqInvOf .fram (framVerifyBlock b u) := by
  unfold framVerifyBlock
  split
  case h_1 x hx =>
    obtain ⟨hlt, hsize⟩ := nextBlockWithBytes_some hx
    exact InFram.goesOn ⟨h.runs, h.window, h.ext⟩ rfl rfl (by simp [Seq.rangesOk, block_toNat u.cfg hlt, hlt, hsize])
  case h_2 => exact h.goesOn rfl rfl trivial

/-- The next byte of a block is one of its bytes. -/
theorem framMore_lt (h : framMore u = true) : u.seq.k + 1 < blockSize u.cfg.toParams u.seq.b.toNat := by
  unfold framMore at h
  exact of_decide_eq_true (Bool.and_elim_right h)

theorem framErased_keeps (h : InFram u) : SeqInvOf .fram (framErased u) := by
  unfold framErased
  split_ifs with hnext
  · refine InFram.goesOn ⟨h.runs, h.window, h.ext⟩ rfl rfl ?_
    simpa only [Seq.rangesOk, State.onSeq_seq, State.onSeq_cfg, block_next u.cfg hnext, framBlock] using hnext
  · exact framWriteBlock_keeps h (numBlocks_pos u.cfg)

theorem framWritten_keeps (h : InFram u) (hb : u.seq.b.toNat < u.cfg.numBlocks) : SeqInvOf .fram (framWritten u) := by
  unfold framWritten
  split_ifs with hmore
  · exact InFram.goesOn ⟨h.runs, h.window, h.ext⟩ rfl rfl (by simpa [Seq.rangesOk] using ⟨hb, framMore_lt hmore⟩)
  · exact h.goesOn rfl rfl hb

theorem framVerified_keeps (h : InFram u) (hb : u.seq.b.toNat < u.cfg.numBlocks) : SeqInvOf .fram (framVerified u) := by
  unfold framVerified
  split_ifs with hmore
  · exact InFram.goesOn ⟨h.runs, h.window, h.ext⟩ rfl rfl (by simpa [Seq.rangesOk] using ⟨hb, framMore_lt hmore⟩)
  · exact framVerifyBlock_keeps h _

theorem framIdentified_keeps (h : InFram u) : SeqInvOf .fram (framIdentified u) := by
  unfold framIdentified
  split_ifs
  · exact InFram.goesOn ⟨h.runs, h.window, h.ext⟩ rfl rfl (by simpa [Seq.rangesOk] using numBlocks_pos u.cfg)
  · exact (h.flagIf (by decide) true).goesOn rfl rfl trivial

theorem framProgrammed_keeps (h : InFram u)
    (hranges : u.seq.b.toNat < u.cfg.numBlocks ∧ u.seq.k < blockSize u.cfg.toParams u.seq.b.toNat) :
    SeqInvOf .fram (framProgrammed u) := by
  have habort := h.abortIf (bit := 0x02) (by decide) (u.fce.result != .ok)
  unfold framProgrammed
  dsimp only
  split_ifs <;> exact habort.goesOn rfl rfl (by simpa [Seq.rangesOk, framAbortIf] using hranges)

theorem framBatchDone_keeps (h : InFram u) : SeqInvOf .fram (framBatchDone u) := by
  unfold framBatchDone
  split_ifs with hnext
  · exact framWriteBlock_keeps h hnext
  · exact framVerifyBlock_keeps h 0

theorem fram_keeps (h : SeqInvOf .fram s) (hown : s.seq.pos.owner = some .fram) (hidle : s.fce.phase = .idle) :
    SeqInvOf .fram (framStep s) := by
  have hruns := h.runs (by rintro e; simp [e, SeqPos.owner] at hown)
  have hext : s.extEn = false := h.ext.trans (by simp [SeqPos.extOpen, hown])
  have hin (hopen : s.seq.pos ≠ .frEnable) : InFram s :=
    ⟨hruns, h.window (by simpa [SeqPos.windowOpen, hown] using hopen), hext⟩
  have hranges := h.ranges
  cases hp : s.seq.pos <;> simp [SeqPos.owner, hp] at hown <;>
    simp only [Seq.rangesOk, hp] at hranges <;> simp only [framStep, hp] <;> simp [hp] at hin
  case frEnable => exact InFram.goesOn ⟨hruns, rfl, hext⟩ rfl rfl trivial
  case frIdentify => exact hin.requests .frIdentifyDone 0x01 hidle rfl trivial rfl
  case frIdentifyDone => exact h.whenDone (framIdentified_keeps hin)
  case frErase => exact hin.requests .frEraseDone 0x02 hidle rfl hranges rfl
  case frEraseDone =>
    exact h.whenDone ((hin.flagIf (by decide) _).goesOn rfl rfl (by simpa [Seq.rangesOk] using hranges))
  case frEraseWdt => exact framErased_keeps ⟨hruns, hin.window, hext⟩
  case frProgram => exact InFram.requests (u := stepG s) .frProgramDone 0x03 ⟨hruns, hin.window, hext⟩ hidle rfl hranges rfl
  case frProgramDone => exact h.whenDone (framProgrammed_keeps hin hranges)
  case frRead => exact hin.requests .frReadDone 0x05 hidle rfl hranges rfl
  case frReadDone | frVerifyDone =>
    exact h.whenDone ((hin.abortIf (by decide) _).goesOn rfl rfl (by simpa [Seq.rangesOk, framAbortIf] using hranges))
  case frWriteWdt => exact framWritten_keeps ⟨hruns, hin.window, hext⟩ hranges.1
  case frBatchReset => exact hin.requests .frBatchResetDone 0x06 hidle rfl hranges rfl
  case frBatchResetDone => exact h.whenDone (framBatchDone_keeps hin)
  case frVerify => exact InFram.requests (u := stepG s) .frVerifyDone 0x05 ⟨hruns, hin.window, hext⟩ hidle rfl hranges rfl
  case frVerifyWdt => exact framVerified_keeps ⟨hruns, hin.window, hext⟩ hranges.1
  case frDisable => exact .endBody rfl hruns hext

end

end Sys2Proof.Machine
end

section
/-! PROOFS. SEQ's invariant under the positions bodies share, under every agent's turn and at reset; the statements on it. -/

namespace Sys2Proof.Machine

section
variable {self : TestId} {s u t : State}

/-! ### The positions bodies share -/

/-- A checking body's `mask` is 0 at its entry. -/
theorem clearMask_runs (hcur : u.seq.cur = self.code) : (clearMask u).seq.runs self :=
  ⟨hcur, fun _ => by simp⟩

/-- The entry of every body (R151, R155). -/
theorem bodyEntry_keeps (hcur : u.seq.cur = self.code) (hext : u.extEn = false) : SeqInvOf self (bodyEntry self u) := by
  cases self
  case error => exact .goesOnShared rfl ⟨hcur, nofun⟩ (.inr ⟨rfl, rfl⟩) hext
  case soutBus => exact .goesOnAway (by simp) rfl ⟨hcur, nofun⟩ (by simp [Seq.rangesOk]) hext
  case plisRegisters => exact .goesOnAway (by simp) rfl (clearMask_runs hcur) (by simp [Seq.rangesOk]) hext
  case dataBus => exact .goesOn rfl (clearMask_runs hcur) trivial nofun hext nofun
  case fram => exact .goesOn rfl (clearMask_runs hcur) trivial nofun hext nofun
  case twoRam => exact ramTickAt_keeps 0 (clearMask_runs hcur) hext
  case extBus => exact extBusAt_keeps 0 hcur hext

/-- After `ShowError` a body returns what it announced (R155, R156). -/
theorem returnOk_after {q : Seq} {o : TestOutcome}
    (h : (self.checking = true ∧ o = .error ∧ q.mask ≠ 0) ∨ (self = .error ∧ o = .noError)) :
    Seq.returnOk self { q with pos := .ret o } := by
  obtain ⟨hchecking, rfl, hmask⟩ | ⟨rfl, rfl⟩ := h
  · simpa [Seq.returnOk, hchecking] using hmask
  · rfl

theorem showSetStep_eq (o : TestOutcome) (s : State) :
    showSetStep o s = goto (if s.cfg.errorDisplayTicks = 0 then .ret o else .showWait o)
      ((outSet s.seq.mask s).onSeq fun q => { q with n := 1 }) := rfl

theorem showSet_keeps {o : TestOutcome} (h : SeqInvOf self s) (hp : s.seq.pos = .showSet o) :
    SeqInvOf self (showSetStep o s) := by
  have hruns := h.runs (by simp [hp])
  have hext : s.extEn = false := by simpa [hp, SeqPos.extOpen, SeqPos.owner] using h.ext
  have hreturns := h.returns
  simp only [Seq.returnOk, hp] at hreturns
  rw [showSetStep_eq]
  split_ifs
  · exact .goesOnShared rfl hruns (returnOk_after hreturns) hext
  · exact .goesOnShared rfl hruns hreturns hext

theorem showWait_keeps {o : TestOutcome} (h : SeqInvOf self s) (hp : s.seq.pos = .showWait o) :
    SeqInvOf self (showWaitStep o s) := by
  have hruns := h.runs (by simp [hp])
  have hext : s.extEn = false := by simpa [hp, SeqPos.extOpen, SeqPos.owner] using h.ext
  have hreturns := h.returns
  simp only [Seq.returnOk, hp] at hreturns
  refine h.waitTick ?_
  split_ifs
  · obtain ⟨hcur, howner, -, -, hforeign, hwindow, hext, hawaits⟩ := h
    refine ⟨hcur, howner, ?_, ?_, hforeign, hwindow, hext, hawaits⟩
    · simp [Seq.rangesOk, hp]
    · simpa [Seq.returnOk, hp] using hreturns
  · exact .goesOnShared rfl hruns (returnOk_after hreturns) hext

/-- The return: the next test is at the entry of its dispatch. -/
theorem finishDispatch_keeps (o : TestOutcome) (hext : s.extEn = false) :
    SeqInvOf (transition self o) (finishDispatch self o s) where
  cur := rfl
  owner := nofun
  ranges := trivial
  returns := trivial
  foreign _ h := absurd rfl h
  window := nofun
  ext := hext
  awaits := nofun

theorem shared_keeps (h : SeqInvOf self s) (hown : s.seq.pos.owner = none) : SeqInv (bodyStep self s) := by
  have hext : s.extEn = false := h.ext.trans (by simp [SeqPos.extOpen, hown])
  rw [bodyStep_shared self hown, seqInv_iff]
  cases hp : s.seq.pos <;> simp only [SeqPos.owner, hp, reduceCtorEq] at hown <;> simp only [sharedStep, hp]
  case dispatch => exact ⟨self, bodyEntry_keeps h.cur hext⟩
  case showSet o => exact ⟨self, showSet_keeps h hp⟩
  case showWait o => exact ⟨self, showWait_keeps h hp⟩
  case ret o => exact ⟨_, finishDispatch_keeps o hext⟩

/-- A step of the body of the current test, FCE idle. -/
theorem bodyStep_keeps (h : SeqInvOf self s) (hidle : s.fce.phase = .idle) : SeqInv (bodyStep self s) := by
  cases hown : s.seq.pos.owner with
  | none => exact shared_keeps h hown
  | some x =>
    obtain rfl := h.owner x hown
    rw [seqInv_iff]
    refine ⟨x, ?_⟩
    cases x
    case error => cases hp : s.seq.pos <;> simp [SeqPos.owner, hp] at hown
    case soutBus => exact soutBus_keeps h hown
    case plisRegisters => exact plis_keeps h hown
    case dataBus => exact dataBus_keeps h hown
    case fram => exact fram_keeps h hown hidle
    case twoRam => exact twoRam_keeps h hown
    case extBus => exact extBus_keeps h hown

/-! ### Every turn -/

/-- A turn that leaves SEQ, external access and the parameters alone, closes no window, and where it touches FCE leaves an
operation that runs or has ended. -/
theorem seqInv_of_frame (h : SeqInv s) (hseq : t.seq = s.seq) (hext : t.extEn = s.extEn) (hcfg : t.cfg = s.cfg)
    (hwindow : s.winEn = true → t.winEn = true)
    (hfce : s.fce = t.fce ∨ t.fce.phase ≠ .idle ∨ t.fce.done = true) : SeqInv t := by
  rw [seqInv_iff] at h ⊢
  obtain ⟨self, h⟩ := h
  refine ⟨self, hseq ▸ h.cur, hseq ▸ h.owner, hseq ▸ hcfg ▸ h.ranges, hseq ▸ h.returns, hseq ▸ h.foreign,
    fun hopen => hwindow (h.window (hseq ▸ hopen)), hext ▸ hseq ▸ h.ext, fun hawaits => ?_⟩
  obtain hsame | hruns := hfce
  · exact hsame ▸ h.awaits (hseq ▸ hawaits)
  · exact hruns.imp_left (busy_eq _).mpr

theorem core_keeps_seqInv (h : SeqInv s) (hstep : agentStep .core s = .next t) : SeqInv t := by
  obtain ⟨-, hrow⟩ | ⟨hidle, self, hcur, rfl⟩ := core_cases hstep
  · have hruns := hrow.writes.runsOrDone
    obtain ⟨e, f, dev, draws, rfl⟩ := hrow.fceOnly
    exact seqInv_of_frame h rfl rfl rfl id (.inr hruns)
  · obtain ⟨test, h⟩ := (seqInv_iff s).mp h
    obtain rfl := code_injective (hcur.symm.trans h.cur)
    exact bodyStep_keeps h hidle

theorem bench_keeps_seqInv (h : SeqInv s) (hstep : agentStep .bench s = .next t) : SeqInv t := by
  obtain ⟨op, o, rest, -, g, rfl, hidle, hbusy⟩ | ⟨i, d, rest, -, -, rfl⟩ | ⟨rest, -, rfl⟩ | ⟨-, rfl⟩ :=
    bench_next s t hstep
  · exact seqInv_of_frame h rfl rfl rfl id (.inr (request_keeps hidle hbusy).2.2)
  · exact h
  · exact seqInv_of_frame h rfl rfl rfl (fun _ => rfl) (.inl rfl)
  · exact h

/-- After a reset SEQ is at the dispatch of `SoutBus` (R38, R230). -/
theorem hwReset_seqInv (s : State) : SeqInv (hwReset s) :=
  (seqInv_iff _).mpr ⟨.soutBus, rfl, nofun, trivial, trivial, nofun, nofun, rfl, nofun⟩

theorem agentStep_keeps_seqInv {a : Agent} (h : SeqInv s) (hstep : agentStep a s = .next t) : SeqInv t := by
  cases a with
  | core => exact core_keeps_seqInv h hstep
  | bench => exact bench_keeps_seqInv h hstep
  | tick => cases hstep; exact h
  | resetLine => cases hstep; exact hwReset_seqInv s

/-- After a reset FCE is idle and its registers are 0 (R38). -/
theorem hwReset_fceInv (s : State) : FceInv (hwReset s) :=
  ⟨trivial, nofun, Nat.two_pow_pos _, Nat.two_pow_pos _, Nat.zero_le _⟩

end

/-! ### The obligations -/

/-- Settles O50: by agent; a body's step by the position SEQ stands at. -/
theorem stepKeepsSeqInvariant : Obligations.StepKeepsSeqInvariant := by
  unfold Obligations.StepKeepsSeqInvariant
  intro s t hinv hstep
  exact agentStep_keeps_seqInv (afterTurn_seqInv hinv) hstep

/-- Settles O8: the reset state is what a reset makes of itself. -/
theorem resetMeetsTheInvariants : Obligations.ResetMeetsTheInvariants := by
  unfold Obligations.ResetMeetsTheInvariants
  have hreset : hwReset State.reset = State.reset := rfl
  refine ⟨hreset ▸ hwReset_fceInv State.reset, hreset ▸ hwReset_seqInv State.reset, ?_⟩
  exact ⟨Memory.wf_nil, trivial, trivial⟩

end Sys2Proof.Machine
end

section
/-! PROOFS. Who writes the two enables and who presents FCE a request; stores outside the window; the reference device's
wire commands. The statements of 20_memory.md that run no whole operation. -/

namespace Sys2Proof.Machine

/-! ### What a body's step does to FCE and the enables -/

/-- `t` has the enables and FCE's registers of `s`. -/
structure SameControls (s t : State) : Prop where
  fce : t.fce = s.fce
  winEn : t.winEn = s.winEn
  extEn : t.extEn = s.extEn

/-- What a step of test `self` does to the enables and to FCE's registers: nothing, or it is one of the two calls of
`FlashWindow`, one of the two of `ExtAccess` (R32), or the presenting of a request with the window enabled (R59). -/
inductive ControlStep (self : TestId) (s t : State) : Prop where
  | quiet (h : SameControls s t)
  | window (hself : self = .fram) (hpos : s.seq.pos = .frEnable ∨ s.seq.pos = .frDisable) (hfce : t.fce = s.fce)
      (hext : t.extEn = s.extEn)
  | access (hself : self = .dataBus) (hpos : s.seq.pos = .dbEnable ∨ s.seq.pos = .dbDisable) (hfce : t.fce = s.fce)
      (hwin : t.winEn = s.winEn)
  | request (hopen : s.seq.pos.windowOpen = true) (hwin : t.winEn = s.winEn) (hext : t.extEn = s.extEn)

section
variable {s t u : State}

theorem OnlySeq.sameControls (h : OnlySeq s t) : SameControls s t := by
  obtain ⟨q, rfl⟩ := h
  exact ⟨rfl, rfl, rfl⟩

theorem SameControls.trans (h : SameControls s t) (h' : SameControls t u) : SameControls s u :=
  ⟨h'.fce.trans h.fce, h'.winEn.trans h.winEn, h'.extEn.trans h.extEn⟩

/-- A call that touches neither FCE nor an enable, then writes of SEQ's registers. -/
theorem SameControls.of_seq (hseq : OnlySeq u t) (h : SameControls s u) : SameControls s t := h.trans hseq.sameControls

theorem SameControls.of_waitTick {go : State → State} (hgo : OnlySeq (consumeTick s) (go (consumeTick s))) :
    SameControls s (waitTick go s) := by
  unfold waitTick
  split_ifs
  · exact .of_seq hgo ⟨rfl, rfl, rfl⟩
  · exact ⟨rfl, rfl, rfl⟩

theorem onlySeq_plisLoop (p : SeqPos) (s : State) : OnlySeq s (plisLoop p s) := ⟨_, rfl⟩

theorem plisCheck_sameControls (h : Handle) (want bit : Byte) (s : State) : SameControls s (plisCheck h want bit s) :=
  ⟨by simp [plisCheck], by simp [plisCheck], by simp [plisCheck]⟩

theorem ramCheck_sameControls (want bit : Byte) (s : State) : SameControls s (ramCheck want bit s) :=
  ⟨by simp [ramCheck], by simp [ramCheck], by simp [ramCheck]⟩

theorem sharedStep_sameControls (self : TestId) (s : State) : SameControls s (sharedStep self (bodyEntry self) s) := by
  unfold sharedStep
  split
  case h_1 after hp => exact ⟨rfl, rfl, rfl⟩
  case h_2 after hp => exact .of_waitTick (.ite ⟨_, rfl⟩ ⟨_, rfl⟩)
  case h_3 o hp => exact ⟨rfl, rfl, rfl⟩
  case h_4 => exact .of_seq (onlySeq_bodyEntry self _) ⟨rfl, rfl, rfl⟩

theorem soutBus_sameControls (h : s.seq.pos.owner = some .soutBus) : SameControls s (soutBusStep s) := by
  cases hp : s.seq.pos <;> simp [SeqPos.owner, hp] at h <;> simp only [soutBusStep, hp]
  case soutSet => exact ⟨rfl, rfl, rfl⟩
  case soutWait => exact .of_waitTick (onlySeq_soutNext _)

theorem extBus_sameControls (h : s.seq.pos.owner = some .extBus) : SameControls s (extBusStep s) := by
  cases hp : s.seq.pos <;> simp [SeqPos.owner, hp] at h <;> simp only [extBusStep, hp]
  case ebDrive => exact ⟨rfl, rfl, rfl⟩
  case ebWait => exact .of_waitTick (onlySeq_extBusAt _ _)

theorem plis_sameControls (h : s.seq.pos.owner = some .plisRegisters) : SameControls s (plisStep s) := by
  cases hp : s.seq.pos <;> simp [SeqPos.owner, hp] at h <;> simp only [plisStep, hp]
  case plisWait => exact .of_waitTick ⟨_, rfl⟩
  case plisVersion => exact .of_seq (onlySeq_plisLoop _ _) (plisCheck_sameControls _ _ _ s)
  case plisExtWrite | plisInitWrite => exact ⟨rfl, rfl, rfl⟩
  case plisExtRead | plisInitRead => exact .of_seq (onlySeq_plisAgain ⟨_, rfl⟩) (plisCheck_sameControls _ _ _ s)
  case plisAliasWrite => exact .of_seq (onlySeq_plisAgain ⟨_, rfl⟩) ⟨rfl, rfl, rfl⟩
  case plisAliasRead =>
    exact .of_seq (onlySeq_plisAgain (onlySeq_plisRepetitionDone _)) (plisCheck_sameControls _ _ _ s)

theorem twoRam_sameControls (h : s.seq.pos.owner = some .twoRam) : SameControls s (twoRamStep s) := by
  cases hp : s.seq.pos <;> simp [SeqPos.owner, hp] at h <;> simp only [twoRamStep, hp]
  case trWait => exact .of_waitTick ⟨_, rfl⟩
  case trImmWrite => exact ⟨rfl, rfl, rfl⟩
  case trDelWrite => exact .of_seq (onlySeq_ramAgain ⟨_, rfl⟩) ⟨rfl, rfl, rfl⟩
  case trImmRead => exact .of_seq (onlySeq_ramAgain ⟨_, rfl⟩) (ramCheck_sameControls _ _ s)
  case trDelRead =>
    exact .of_seq (onlySeq_ramAgain ⟨_, rfl⟩) (.of_seq (u := ramCheck _ _ s) ⟨_, rfl⟩ (ramCheck_sameControls _ _ s))
  case trImmWdt => exact ⟨rfl, rfl, rfl⟩
  case trDelWdt => exact .of_seq (onlySeq_ramTickAt _ _) ⟨rfl, rfl, rfl⟩

theorem dataBus_controls (h : s.seq.pos.owner = some .dataBus) : ControlStep .dataBus s (dataBusStep s) := by
  cases hp : s.seq.pos <;> simp [SeqPos.owner, hp] at h <;> simp only [dataBusStep, hp]
  case dbEnable => exact .access rfl (.inl hp) rfl rfl
  case dbDisable => exact .access rfl (.inr hp) rfl rfl
  case dbReadBack | dbReadPaired =>
    exact .quiet ⟨by simp [dbCheckWritten, dbCheckPaired], by simp [dbCheckWritten, dbCheckPaired],
      by simp [dbCheckWritten, dbCheckPaired]⟩
  case dbWdt => exact .quiet (.of_seq (onlySeq_dbNext _) ⟨rfl, rfl, rfl⟩)
  case dbWrite | dbSettle => exact .quiet ⟨rfl, rfl, rfl⟩

/-- A request presented after writes of SEQ's registers, at a position the window is enabled at. -/
theorem ControlStep.of_request {self : TestId} {op : Byte} {o : Operands} (hopen : s.seq.pos.windowOpen = true)
    (hseq : OnlySeq s u) (h : exec (decodeReq op o) u = .next t) : ControlStep self s t := by
  obtain ⟨q, rfl⟩ := hseq
  rw [request_eq] at h
  cases h
  split_ifs <;> exact .request hopen rfl rfl

theorem fram_controls (h : s.seq.pos.owner = some .fram) : ControlStep .fram s (framStep s) := by
  have hopen (hpos : s.seq.pos ≠ .frEnable) : s.seq.pos.windowOpen = true := by simp [SeqPos.windowOpen, h, hpos]
  cases hp : s.seq.pos <;> simp [SeqPos.owner, hp] at h <;> simp [hp] at hopen <;> simp only [framStep, hp]
  case frEnable => exact .window rfl (.inl hp) rfl rfl
  case frDisable => exact .window rfl (.inr hp) rfl rfl
  case frIdentify => exact .of_request (op := 0x01) (hp ▸ hopen) ⟨_, rfl⟩ rfl
  case frErase => exact .of_request (op := 0x02) (hp ▸ hopen) ⟨_, rfl⟩ rfl
  case frProgram => exact .of_request (op := 0x03) (hp ▸ hopen) ⟨_, rfl⟩ rfl
  case frRead | frVerify => exact .of_request (op := 0x05) (hp ▸ hopen) ⟨_, rfl⟩ rfl
  case frBatchReset => exact .of_request (op := 0x06) (hp ▸ hopen) ⟨_, rfl⟩ rfl
  case frIdentifyDone => exact .quiet (onlySeq_whenDone (onlySeq_framIdentified s)).sameControls
  case frEraseDone | frProgramDone | frReadDone | frVerifyDone => exact .quiet (onlySeq_whenDone ⟨_, rfl⟩).sameControls
  case frBatchResetDone => exact .quiet (onlySeq_whenDone (onlySeq_framBatchDone s)).sameControls
  case frEraseWdt => exact .quiet (.of_seq (onlySeq_framErased _) ⟨rfl, rfl, rfl⟩)
  case frWriteWdt => exact .quiet (.of_seq (onlySeq_framWritten _) ⟨rfl, rfl, rfl⟩)
  case frVerifyWdt => exact .quiet (.of_seq (onlySeq_framVerified _) ⟨rfl, rfl, rfl⟩)

/-- What a step of any body, in any state, does to FCE's registers and the enables. -/
theorem bodyStep_controls (self : TestId) (s : State) : ControlStep self s (bodyStep self s) := by
  by_cases hown : s.seq.pos.owner = some self
  · cases self
    case error => cases hp : s.seq.pos <;> simp [SeqPos.owner, hp] at hown
    case soutBus => exact .quiet (soutBus_sameControls hown)
    case plisRegisters => exact .quiet (plis_sameControls hown)
    case dataBus => exact dataBus_controls hown
    case fram => exact fram_controls hown
    case twoRam => exact .quiet (twoRam_sameControls hown)
    case extBus => exact .quiet (extBus_sameControls hown)
  · exact .quiet (bodyStep_foreign hown ▸ sharedStep_sameControls self s)

/-- A row of the phase table leaves both enables alone. -/
theorem IsRow.enables (h : IsRow s t) : t.winEn = s.winEn ∧ t.extEn = s.extEn := by
  obtain ⟨e, f, dev, draws, rfl⟩ := h.fceOnly
  exact ⟨rfl, rfl⟩

/-- SEQ changes FCE's registers only with the window enabled (R59). -/
theorem core_requests_with_window (hinv : SeqInv s) (hidle : s.fce.phase = .idle) (hstep : agentStep .core s = .next t)
    (hchanged : t.fce ≠ s.fce) : s.winEn = true := by
  obtain ⟨-, hwindow, -⟩ := hinv
  obtain ⟨self, -, rfl⟩ := core_idle_next s t hidle hstep
  cases bodyStep_controls self s with
  | quiet h => exact absurd h.fce hchanged
  | window _ _ hfce _ | access _ _ hfce _ => exact absurd hfce hchanged
  | request hopen _ _ => exact hwindow hopen

/-- The writers of `win_en`. -/
theorem winEn_writers {a : Agent} (hstep : agentStep a s = .next t) (hchanged : t.winEn ≠ s.winEn) :
    a = .resetLine ∨ (a = .bench ∧ ∃ rest, s.bench = .openWindow :: rest) ∨
    a = .core ∧ s.fce.phase = .idle ∧ s.seq.cur = 4 ∧ (s.seq.pos = .frEnable ∨ s.seq.pos = .frDisable) := by
  cases a with
  | core =>
    obtain ⟨-, hrow⟩ | ⟨hidle, self, hcur, rfl⟩ := core_cases hstep
    · exact absurd hrow.enables.1 hchanged
    · cases bodyStep_controls self s with
      | quiet h => exact absurd h.winEn hchanged
      | window hself hpos _ _ => exact .inr (.inr ⟨rfl, hidle, hcur.trans (congrArg _ hself), hpos⟩)
      | access _ _ _ hwin | request _ hwin _ => exact absurd hwin hchanged
  | bench =>
    obtain ⟨op, o, rest, -, g, rfl, -⟩ | ⟨i, d, rest, -, -, rfl⟩ | ⟨rest, hbench, -⟩ | ⟨-, rfl⟩ :=
      bench_next s t hstep
    · exact absurd rfl hchanged
    · exact absurd rfl hchanged
    · exact .inr (.inl ⟨rfl, rest, hbench⟩)
    · exact absurd rfl hchanged
  | tick => cases hstep; exact absurd rfl hchanged
  | resetLine => exact .inl rfl

/-- The writers of `ext_en`. -/
theorem extEn_writers {a : Agent} (hstep : agentStep a s = .next t) (hchanged : t.extEn ≠ s.extEn) :
    a = .resetLine ∨
    a = .core ∧ s.fce.phase = .idle ∧ s.seq.cur = 3 ∧ (s.seq.pos = .dbEnable ∨ s.seq.pos = .dbDisable) := by
  cases a with
  | core =>
    obtain ⟨-, hrow⟩ | ⟨hidle, self, hcur, rfl⟩ := core_cases hstep
    · exact absurd hrow.enables.2 hchanged
    · cases bodyStep_controls self s with
      | quiet h => exact absurd h.extEn hchanged
      | access hself hpos _ _ => exact .inr ⟨rfl, hidle, hcur.trans (congrArg _ hself), hpos⟩
      | window _ _ _ hext | request _ _ hext => exact absurd hext hchanged
  | bench => exact absurd (bench_frame hstep).2.2.1 hchanged
  | tick => cases hstep; exact absurd rfl hchanged
  | resetLine => exact .inl rfl

end

/-- An offset the window does not have is no access (log 21). -/
theorem inWindow_of_le {s : State} {a : Nat} (access : Result) (h : s.cfg.flashSize ≤ a) :
    inWindow a s access = .fault .outsideWindow := if_neg (Nat.not_lt.mpr h)

/-! ### The wire commands at the reference device (R68, R74) -/

namespace RefDev
variable {c : Params} {r : RefDev}

/-- The device takes stores as cycles of a command (R74). -/
def TakesCommands (r : RefDev) : Prop := r.mode = .read ∨ r.mode = .autosel

theorem store_command (h : r.TakesCommands) (a : Nat) (d : Byte) : r.store c a d = r.storeCommand c a d := by
  rcases h with h | h <;> simp [store, h]

theorem storeAll_append (cycles cycles' : List Cycle) (r : RefDev) :
    storeAll c (cycles ++ cycles') r = storeAll c cycles' (storeAll c cycles r) := List.foldl_append

/-- The unlock pair of R91 with no command begun, and in the middle of an erase. -/
theorem storeAll_unlockPair (h : r.TakesCommands) :
    (r.cpos = .p0 → storeAll c unlockPair r = { r with cpos := .p2 }) ∧
    (r.cpos = .p3 → storeAll c unlockPair r = { r with cpos := .p5 }) := by
  have htakes (p : CmdPos) : TakesCommands { r with cpos := p } := h
  constructor <;> intro hcpos <;>
    simp [storeAll, unlockPair, store_command h, store_command (htakes _), storeCommand, hcpos]

/-- `SEQ_AUTOSELECT` (R64). -/
theorem storeAll_seqAutoselect (h : r.TakesCommands) (hcpos : r.cpos = .p0) :
    storeAll c (cyclesOf .seqAutoselect) r = { r with mode := .autosel } := by
  change storeAll c (unlockPair ++ [⟨0xAAA, 0x90⟩]) r = _
  rw [storeAll_append, (storeAll_unlockPair h).1 hcpos]
  have htakes : TakesCommands { r with cpos := .p2 } := h
  simp [storeAll, store_command htakes, storeCommand, ← hcpos]

/-- `SEQ_RESET` where commands are taken. -/
theorem storeAll_seqReset (h : r.TakesCommands) (hcpos : r.cpos = .p0) :
    storeAll c (cyclesOf .seqReset) r = { r with mode := .read } := by
  change storeAll c (unlockPair ++ [⟨0xAAA, 0xF0⟩]) r = _
  rw [storeAll_append, (storeAll_unlockPair h).1 hcpos]
  have htakes : TakesCommands { r with cpos := .p2 } := h
  simp [storeAll, store_command htakes, storeCommand, toRead, ← hcpos]

/-- `SEQ_RESET` after a failed operation: the unlock pair is ignored, the command byte is not (R79). -/
theorem storeAll_seqReset_failed (h : r.mode = .fail) (hcpos : r.cpos = .p0) :
    storeAll c (cyclesOf .seqReset) r = { r with mode := .read } := by
  change storeAll c [⟨0xAAA, 0xAA⟩, ⟨0x555, 0x55⟩, ⟨0xAAA, 0xF0⟩] r = _
  simp [storeAll, store, h, toRead, ← hcpos]

/-- `SEQ_PROGRAM` starts a program (R75). -/
theorem storeAll_seqProgram (h : r.TakesCommands) (hcpos : r.cpos = .p0) (a : Nat) (v : Byte) :
    storeAll c (cyclesOf (.seqProgram a v)) r = r.startProgram a v := by
  change storeAll c (unlockPair ++ [⟨0xAAA, 0xA0⟩, ⟨a, v⟩]) r = _
  rw [storeAll_append, (storeAll_unlockPair h).1 hcpos]
  have htakes (p : CmdPos) : TakesCommands { r with cpos := p } := h
  simp [storeAll, store_command (htakes _), storeCommand, startProgram, currentDraws]

/-- `SEQ_BLOCK_ERASE` at an offset of a block starts its erase (R77). -/
theorem storeAll_seqBlockErase (h : r.TakesCommands) (hcpos : r.cpos = .p0) {a b : Nat}
    (hblock : blockHolding c a = some b) :
    storeAll c (cyclesOf (.seqBlockErase a)) r = r.startErase b := by
  change storeAll c (unlockPair ++ ([⟨0xAAA, 0x80⟩] ++ (unlockPair ++ [⟨a, 0x30⟩]))) r = _
  have htakes (p : CmdPos) : TakesCommands { r with cpos := p } := h
  have hsetup : storeAll c [⟨0xAAA, 0x80⟩] { r with cpos := .p2 } = { r with cpos := .p3 } := by
    simp [storeAll, store_command (htakes _), storeCommand]
  rw [storeAll_append, (storeAll_unlockPair h).1 hcpos, storeAll_append, hsetup, storeAll_append,
    (storeAll_unlockPair (htakes .p3)).2 rfl]
  simp [storeAll, store_command (htakes _), storeCommand, hblock, startErase, currentDraws]

/-- In autoselect mode the two identity offsets answer the codes, and no load changes the device (R64). -/
theorem load_autosel (hoffsets : c.idMfrOffset ≠ c.idDevOffset) (h : r.mode = .autosel) :
    r.load c c.idMfrOffset = (r.simMfr, r) ∧ r.load c c.idDevOffset = (r.simDev, r) := by
  simp [load, h, hoffsets.symm]

end RefDev

/-! ### The obligations -/

/-- Settles O49: of SEQ's calls only `FlashWindow` and `ExtAccess` write an enable, and only `Fram` presents a request. -/
theorem whoEnablesTheWindow : Obligations.WhoEnablesTheWindow := by
  unfold Obligations.WhoEnablesTheWindow
  exact ⟨fun _ _ => core_requests_with_window, fun _ _ => bench_openWindow,
    fun _ _ _ hstep => ⟨winEn_writers hstep, extEn_writers hstep⟩⟩

/-- Settles O57: `SEQ_AUTOSELECT` changes the mode only, and `SEQ_RESET` changes it back. -/
theorem refDevIdentifiesAndResets : Obligations.RefDevIdentifiesAndResets := by
  unfold Obligations.RefDevIdentifiesAndResets
  intro c r hoffsets hcpos
  refine ⟨fun hmode => ?_, fun hfail => RefDev.storeAll_seqReset_failed hfail hcpos⟩
  rw [RefDev.storeAll_seqAutoselect hmode hcpos]
  obtain ⟨hmfr, hdev⟩ := RefDev.load_autosel (r := { r with mode := .autosel }) hoffsets rfl
  exact ⟨hmfr, hdev, rfl, RefDev.storeAll_seqReset (.inr rfl) hcpos⟩

/-- Settles O21: both stores are window accesses at the operand's offset. -/
theorem storeOutsideTheWindowFaults : Obligations.StoreOutsideTheWindowFaults := by
  unfold Obligations.StoreOutsideTheWindowFaults
  intro s a v houtside
  exact ⟨fun hp => by simp [exec, execSeqProgram, hp, inWindow_of_le _ houtside],
    fun hp => by simp [exec, execSeqBlockErase, hp, inWindow_of_le _ houtside]⟩

end Sys2Proof.Machine
end

section
/-! PROOFS. FCE with the reference device behind an enabled window: what each row of the phase table makes of both, and
from it how a program, an erase and a read run to their end. -/

namespace Sys2Proof.Machine

/-! ### FCE and the reference device as one system -/

/-- `s` with these registers of FCE, this reference device, and these events after its bus trace. -/
def onDevice (s : State) (f : Fce) (r : RefDev) (events : List BusEvent) : State :=
  { s with fce := f, dev := .refDev r, busTrace := s.busTrace ++ events }

/-- FCE with registers `f` and the reference device `r` behind it make exactly the bus cycles `events`, one a step, and
come to `f'` and `r'`. -/
def Drives (s : State) (f : Fce) (r : RefDev) (events : List BusEvent) (f' : Fce) (r' : RefDev) : Prop :=
  ∀ before, fceRun events.length (onDevice s f r before) = .next (onDevice s f' r' (before ++ events))

/-- The same, whatever the bus cycles. -/
def Leads (s : State) (f : Fce) (r : RefDev) (f' : Fce) (r' : RefDev) : Prop := ∃ events, Drives s f r events f' r'

/-- The device after a bus cycle. -/
def RefDev.afterCycle (c : Params) (r : RefDev) : BusEvent → RefDev
  | .w a d => r.store c a d
  | .r a _ => (r.load c a).2

section
variable {s : State} {f f' f'' : Fce} {r r' r'' : RefDev} {events events' : List BusEvent}

theorem Drives.refl (s : State) (f : Fce) (r : RefDev) : Drives s f r [] f r := fun before => by
  simp [fceRun]

theorem Drives.trans (h : Drives s f r events f' r') (h' : Drives s f' r' events' f'' r'') :
    Drives s f r (events ++ events') f'' r'' := fun before => by
  rw [List.length_append, fceRun_add _ _ _ _ (h before), h', List.append_assoc]

theorem Drives.leads (h : Drives s f r events f' r') : Leads s f r f' r' := ⟨events, h⟩

theorem Leads.refl (s : State) (f : Fce) (r : RefDev) : Leads s f r f r := (Drives.refl s f r).leads

theorem Leads.trans (h : Leads s f r f' r') (h' : Leads s f' r' f'' r'') : Leads s f r f'' r'' := by
  obtain ⟨_, h⟩ := h
  obtain ⟨_, h'⟩ := h'
  exact (h.trans h').leads

/-- A bus cycle at an enabled window is known by its event: what the reference device is after it. -/
theorem BusCall.refDev {u : State} {e : BusEvent} (hcall : BusCall s u) (hwin : s.winEn = true)
    (hdev : s.dev = .refDev r) (htrace : u.busTrace = s.busTrace ++ [e]) :
    u.dev = .refDev (r.afterCycle s.cfg.toParams e) ∧ u.draws = s.draws := by
  cases hcall with
  | store a d =>
    obtain rfl : e = .w a d := by simpa using htrace.symm
    simp [hwin, hdev, Device.store, RefDev.afterCycle]
  | load a =>
    obtain rfl : e = .r a (devAnswer a s) := by simpa using htrace.symm
    simp [hwin, hdev, devAfterLoad, RefDev.afterCycle]

/-- A row of the phase table, its load answered by the device. -/
theorem Drives.of_row {d : Byte} {e : BusEvent} (hwin : s.winEn = true)
    (hrow : ∀ before, RunsItsRow (onDevice s f r before))
    (hanswer : d = (r.load s.cfg.toParams (rowAddress s.cfg.toParams f)).1)
    (hevent : rowEvent s.cfg.toParams f d = some e) :
    Drives s f r [e] (rowNext s.cfg.toParams f d) (r.afterCycle s.cfg.toParams e) := by
  intro before
  obtain ⟨e', t, hevent', hstep, ⟨g, dev, draws, ht⟩, hfce⟩ := hrow before
  have hd : rowAnswer (onDevice s f r before) = d := by simp [rowAnswer, devAnswer, onDevice, hwin, hanswer]
  rw [hd] at hevent' hfce
  obtain rfl : e' = e := Option.some.inj (hevent'.symm.trans hevent)
  have hbusy : f.phase ≠ .idle := fun hidle => by simp [rowEvent, hidle] at hevent
  obtain ⟨u, _, hcall, -, rfl⟩ := fceStep_row (s := onDevice s f r before) hbusy hstep
  obtain ⟨hdev, hdraws⟩ := hcall.refDev hwin rfl (congrArg State.busTrace ht)
  obtain rfl : dev = _ := (congrArg State.dev ht).symm.trans hdev
  obtain rfl : draws = _ := (congrArg State.draws ht).symm.trans hdraws
  obtain rfl : g = _ := (congrArg State.fce ht).symm.trans hfce
  rw [List.length_singleton, fceRun, hstep, ht]
  simp [fceRun, onDevice]

/-- A store row. -/
theorem Drives.of_store {a : Nat} {d : Byte} (hwin : s.winEn = true)
    (hrow : ∀ before, RunsItsRow (onDevice s f r before))
    (hevent : ∀ x, rowEvent s.cfg.toParams f x = some (.w a d)) (hnext : ∀ x, rowNext s.cfg.toParams f x = f')
    (h : Drives s f' (r.store s.cfg.toParams a d) events f'' r'') : Drives s f r (.w a d :: events) f'' r'' := by
  have hdrives := Drives.of_row hwin hrow rfl (hevent _)
  rw [hnext] at hdrives
  exact hdrives.trans h

/-- A load row. -/
theorem Drives.of_load {a : Nat} {d : Byte} (hwin : s.winEn = true) (hload : r.load s.cfg.toParams a = (d, r'))
    (hrow : ∀ before, RunsItsRow (onDevice s f r before)) (haddress : rowAddress s.cfg.toParams f = a)
    (hevent : rowEvent s.cfg.toParams f d = some (.r a d)) : Drives s f r [.r a d] (rowNext s.cfg.toParams f d) r' := by
  have hdrives := Drives.of_row hwin hrow (by rw [haddress, hload]) hevent
  rwa [RefDev.afterCycle, hload] at hdrives

/-- A request whose steps come to an idle FCE with `done` set completes. -/
theorem Drives.completes {i : Instr} (h : Drives s f r events f' r') (hdev : s.dev = .refDev r)
    (haccepted : exec i s = .next { s with fce := f }) (hidle : f'.phase = .idle) (hdone : f'.done = true) :
    Completes i s events (onDevice s f' r' events) := by
  have hstart : onDevice s f r [] = { s with fce := f } := by simp [onDevice, ← hdev]
  exact ⟨_, haccepted, hstart ▸ h [], ⟨f', .refDev r', s.draws, rfl⟩, hidle, hdone⟩

end

/-! ### Wire commands -/

/-- `phase <- p` on FCE's registers. -/
def Fce.goTo (p : Phase) (f : Fce) : Fce := { f with phase := p }

section
variable {s : State} {f f' : Fce} {r r' : RefDev} {events : List BusEvent}

/-- A store row that only goes on to phase `q`, then what follows. -/
theorem Drives.storeTo {p : Phase} {a : Nat} {d : Byte} (q : Phase) (hwin : s.winEn = true)
    (hrow : ∀ before, RunsItsRow (onDevice s (f.goTo p) r before))
    (hevent : ∀ x, rowEvent s.cfg.toParams (f.goTo p) x = some (.w a d))
    (hnext : ∀ x, rowNext s.cfg.toParams (f.goTo p) x = f.goTo q)
    (h : Drives s (f.goTo q) (r.store s.cfg.toParams a d) events f' r') :
    Drives s (f.goTo p) r (.w a d :: events) f' r' := .of_store hwin hrow hevent hnext h

/-- `SEQ_BLOCK_ERASE` of the latched block (R95), the registers left for the spins. -/
theorem seqBlockErase_drives (hwin : s.winEn = true) (herasing : f.erasing s.cfg.toParams) {a : Nat}
    (ha : a = blockOffset s.cfg.toParams f.blk.toNat) (r : RefDev) :
    Drives s (f.goTo .er1) r (wireEvents (.seqBlockErase a)) { f with phase := .dq3, paddr := a, exp := 0xFF, pcnt := 0 }
      (r.storeAll s.cfg.toParams (cyclesOf (.seqBlockErase a))) := by
  subst ha
  have hrow {p : Phase} {r : RefDev} (hp : ∀ before, phaseCommand (onDevice s (f.goTo p) r before) =
      some (.seqBlockErase (blockOffset s.cfg.toParams f.blk.toNat)))
      (before : List BusEvent) : RunsItsRow (onDevice s (f.goTo p) r before) :=
    blockErase_runsItsRow (hp before) herasing
  exact .storeTo .er2 hwin (hrow fun _ => rfl) (fun _ => rfl) (fun _ => rfl) <|
    .storeTo .er3 hwin (hrow fun _ => rfl) (fun _ => rfl) (fun _ => rfl) <|
    .storeTo .er4 hwin (hrow fun _ => rfl) (fun _ => rfl) (fun _ => rfl) <|
    .storeTo .er5 hwin (hrow fun _ => rfl) (fun _ => rfl) (fun _ => rfl) <|
    .storeTo .er6 hwin (hrow fun _ => rfl) (fun _ => rfl) (fun _ => rfl) <|
    .of_store hwin (hrow fun _ => rfl) (fun _ => rfl) (fun _ => rfl) (.refl _ _ _)

/-- `SEQ_PROGRAM` of the element FCE is at (R94), the registers left for completion detection. -/
theorem seqProgram_drives (hwin : s.winEn = true) (hprogramming : f.programming s.cfg.toParams) {a : Nat} {v : Byte}
    (hcycle : f.programCycle = ⟨a, v⟩) (r : RefDev) :
    Drives s (f.goTo .pg1) r (wireEvents (.seqProgram a v)) { f with phase := .pl1, paddr := a, exp := v, pcnt := 0 }
      (r.storeAll s.cfg.toParams (cyclesOf (.seqProgram a v))) := by
  obtain ⟨rfl, rfl⟩ : a = f.programCycle.offset ∧ v = f.programCycle.byte := by simp [hcycle]
  have hrow {p : Phase} {r : RefDev}
      (hp : ∀ before, ∃ a v, phaseCommand (onDevice s (f.goTo p) r before) = some (.seqProgram a v))
      (before : List BusEvent) : RunsItsRow (onDevice s (f.goTo p) r before) := by
    obtain ⟨a, v, hp⟩ := hp before
    exact program_runsItsRow hp hprogramming
  exact .storeTo .pg2 hwin (hrow fun _ => ⟨_, _, rfl⟩) (fun _ => rfl) (fun _ => rfl) <|
    .storeTo .pg3 hwin (hrow fun _ => ⟨_, _, rfl⟩) (fun _ => rfl) (fun _ => rfl) <|
    .storeTo .pg4 hwin (hrow fun _ => ⟨_, _, rfl⟩) (fun _ => rfl) (fun _ => rfl) <|
    .of_store hwin (hrow fun _ => ⟨_, _, rfl⟩) (fun _ => rfl) (fun _ => rfl) (.refl _ _ _)

/-- The one reset sequence of `enter_reset(1, code)` and the publishing of `code` (R122, R93). -/
theorem seqReset_drives (hwin : s.winEn = true) (code : ResultCode) (r : RefDev) :
    Drives s (f.resetting 1 code) r resetEvents (Fce.ended code { f with rsLeft := 0, res := code })
      (r.storeAll s.cfg.toParams (cyclesOf .seqReset)) := by
  have hrow {p : Phase} {r : RefDev}
      (hp : ∀ before, phaseCommand (onDevice s ((f.resetting 1 code).goTo p) r before) = some .seqReset)
      (before : List BusEvent) : RunsItsRow (onDevice s ((f.resetting 1 code).goTo p) r before) :=
    reset_runsItsRow (hp before)
  have hlast {d : Byte} : rowNext s.cfg.toParams ((f.resetting 1 code).goTo .rs3) d =
      Fce.ended code { f with rsLeft := 0, res := code } := by
    simp [rowNext, Fce.goTo, Fce.resetting, Fce.ended]
  exact .storeTo (f := f.resetting 1 code) .rs2 hwin (hrow fun _ => rfl) (fun _ => rfl) (fun _ => rfl) <|
    .storeTo .rs3 hwin (hrow fun _ => rfl) (fun _ => rfl) (fun _ => rfl) <|
    .of_store hwin (hrow fun _ => rfl) (fun _ => rfl) (fun _ => hlast) (.refl _ _ _)

end

/-! ### The spins -/

/-- FCE's registers in the middle of a spin: its phase, the last status and the count of loads. -/
def Fce.spinAt (p : Phase) (s1 : Byte) (pcnt : Nat) (f : Fce) : Fce := { f with phase := p, s1 := s1, pcnt := pcnt }

section
variable {s : State} {f : Fce} {r r' : RefDev}

/-- A load of the device at `a` answers a status that says neither "completed" nor "timing exceeded", and leaves `r'`. -/
def RefDev.AnswersBusy (c : Params) (a : Nat) (exp : Byte) (r r' : RefDev) : Prop :=
  ∃ d, r.load c a = (d, r') ∧ statusDone exp d = false ∧ timingExceeded d = false

/-- A spin runs out the loads its device is busy for, where each of them leaves it spinning. -/
theorem Leads.spin {p : Phase} {bound : Nat} {Busy : Nat → RefDev → Prop}
    (hload : ∀ n s1 pcnt r, Busy (n + 1) r → pcnt + 1 < bound →
      ∃ s1' r', Leads s (f.spinAt p s1 pcnt) r (f.spinAt p s1' (pcnt + 1)) r' ∧ Busy n r')
    {n : Nat} (s1 : Byte) {pcnt : Nat} {r : RefDev} (hbusy : Busy n r) (hbound : pcnt + n < bound) :
    ∃ s1' pcnt' r', Leads s (f.spinAt p s1 pcnt) r (f.spinAt p s1' pcnt') r' ∧ Busy 0 r' := by
  induction n generalizing s1 pcnt r with
  | zero => exact ⟨s1, pcnt, r, .refl _ _ _, hbusy⟩
  | succ n ih =>
    obtain ⟨s1', r', hfirst, hbusy'⟩ := hload n s1 pcnt r hbusy (by omega)
    obtain ⟨s1'', pcnt'', r'', hrest, hidle⟩ := ih s1' hbusy' (by omega : pcnt + 1 + n < bound)
    exact ⟨s1'', pcnt'', r'', hfirst.trans hrest, hidle⟩

/-- Row DQ3. -/
theorem dq3_leads (hwin : s.winEn = true) (hwindow : f.paddr < s.cfg.flashSize) {d : Byte}
    (hload : r.load s.cfg.toParams f.paddr = (d, r')) (s1 : Byte) (pcnt : Nat) :
    Leads s (f.spinAt .dq3 s1 pcnt) r (rowNext s.cfg.toParams (f.spinAt .dq3 s1 pcnt) d) r' :=
  (Drives.of_load (f := f.spinAt .dq3 s1 pcnt) hwin hload (fun _ => dq3_runsItsRow rfl hwindow) rfl rfl).leads

/-- Row PL1. -/
theorem pl1_leads (hwin : s.winEn = true) (hpolling : f.polling s.cfg.toParams) {d : Byte}
    (hload : r.load s.cfg.toParams f.paddr = (d, r')) (s1 : Byte) (pcnt : Nat) :
    Leads s (f.spinAt .pl1 s1 pcnt) r (rowNext s.cfg.toParams (f.spinAt .pl1 s1 pcnt) d) r' :=
  (Drives.of_load (f := f.spinAt .pl1 s1 pcnt) hwin hload (fun _ => pl1_runsItsRow rfl hpolling) rfl rfl).leads

/-- Row PL2. -/
theorem pl2_leads (hwin : s.winEn = true) (hpolling : f.polling s.cfg.toParams) {d : Byte}
    (hload : r.load s.cfg.toParams f.paddr = (d, r')) (s1 : Byte) (pcnt : Nat) :
    Leads s (f.spinAt .pl2 s1 pcnt) r (rowNext s.cfg.toParams (f.spinAt .pl2 s1 pcnt) d) r' :=
  (Drives.of_load (f := f.spinAt .pl2 s1 pcnt) hwin hload (fun _ => pl2_runsItsRow rfl hpolling) rfl rfl).leads

/-- The erase-started spin runs out the loads whose status has bit 3 clear. -/
theorem dq3_spins (hwin : s.winEn = true) (hwindow : f.paddr < s.cfg.flashSize) {Busy : Nat → RefDev → Prop}
    (hload : ∀ n r, Busy (n + 1) r →
      ∃ d r', r.load s.cfg.toParams f.paddr = (d, r') ∧ eraseStarted d = false ∧ Busy n r')
    {n : Nat} (hbusy : Busy n r) (hbound : n < s.cfg.dq3Bound) (s1 : Byte) :
    ∃ s1' pcnt' r', Leads s (f.spinAt .dq3 s1 0) r (f.spinAt .dq3 s1' pcnt') r' ∧ Busy 0 r' := by
  refine Leads.spin (fun n s1 pcnt r hbusy hbound => ?_) s1 hbusy (by omega : 0 + n < s.cfg.dq3Bound)
  obtain ⟨d, r', hload, hclear, hbusy'⟩ := hload n r hbusy
  have hstays : rowNext s.cfg.toParams (f.spinAt .dq3 s1 pcnt) d = f.spinAt .dq3 d (pcnt + 1) := by
    rw [rowNext_dq3 _ _ rfl, if_neg (by simp [hclear]), if_neg (by exact hbound.ne)]; rfl
  exact ⟨d, r', hstays ▸ dq3_leads hwin hwindow hload s1 pcnt, hbusy'⟩

/-- Completion detection runs out the loads whose status says neither "completed" nor "timing exceeded". -/
theorem pl1_spins (hwin : s.winEn = true) (hpolling : f.polling s.cfg.toParams) {Busy : Nat → RefDev → Prop}
    (hload : ∀ n r, Busy (n + 1) r → ∃ r', r.AnswersBusy s.cfg.toParams f.paddr f.exp r' ∧ Busy n r')
    {n : Nat} (hbusy : Busy n r) (hbound : n < s.cfg.pollBound) (s1 : Byte) :
    ∃ s1' pcnt' r', Leads s (f.spinAt .pl1 s1 0) r (f.spinAt .pl1 s1' pcnt') r' ∧ Busy 0 r' := by
  refine Leads.spin (fun n s1 pcnt r hbusy hbound => ?_) s1 hbusy (by omega : 0 + n < s.cfg.pollBound)
  obtain ⟨r', ⟨d, hload, hrunning, hintime⟩, hbusy'⟩ := hload n r hbusy
  have hstays : rowNext s.cfg.toParams (f.spinAt .pl1 s1 pcnt) d = f.spinAt .pl1 d (pcnt + 1) := by
    rw [rowNext_pl1 _ _ rfl, if_neg (by simp [Fce.spinAt, hrunning]), if_neg (by simp [hintime]),
      if_neg (by exact hbound.ne)]
    rfl
  exact ⟨d, r', hstays ▸ pl1_leads hwin hpolling hload s1 pcnt, hbusy'⟩

/-- The load of row DQ3 that finds bit 3 set. -/
theorem dq3_starts (hwin : s.winEn = true) (hwindow : f.paddr < s.cfg.flashSize) {d : Byte}
    (hload : r.load s.cfg.toParams f.paddr = (d, r')) (hset : eraseStarted d = true) (s1 : Byte) (pcnt : Nat) :
    Leads s (f.spinAt .dq3 s1 pcnt) r (f.spinAt .pl1 d 0) r' := by
  have hnext : rowNext s.cfg.toParams (f.spinAt .dq3 s1 pcnt) d = f.spinAt .pl1 d 0 := by
    rw [rowNext_dq3 _ _ rfl, if_pos hset]; rfl
  exact hnext ▸ dq3_leads hwin hwindow hload s1 pcnt

/-- The load of row PL1 that finds the operation completed. -/
theorem pl1_succeeds (hwin : s.winEn = true) (hpolling : f.polling s.cfg.toParams) {d : Byte}
    (hload : r.load s.cfg.toParams f.paddr = (d, r')) (hcompleted : statusDone f.exp d = true) (s1 : Byte) (pcnt : Nat) :
    Leads s (f.spinAt .pl1 s1 pcnt) r (pollExit (f.spinAt .pl1 d (pcnt + 1)) .success) r' := by
  have hnext : rowNext s.cfg.toParams (f.spinAt .pl1 s1 pcnt) d = pollExit (f.spinAt .pl1 d (pcnt + 1)) .success := by
    rw [rowNext_pl1 _ _ rfl, if_pos (by exact hcompleted)]; rfl
  exact hnext ▸ pl1_leads hwin hpolling hload s1 pcnt

/-- The loads of rows PL1 and PL2 that find "timing exceeded" and the operation not completed. -/
theorem pl1_fails (hwin : s.winEn = true) (hpolling : f.polling s.cfg.toParams) {d d' : Byte} {r'' : RefDev}
    (hload : r.load s.cfg.toParams f.paddr = (d, r')) (hrunning : statusDone f.exp d = false)
    (hexceeded : timingExceeded d = true) (hagain : r'.load s.cfg.toParams f.paddr = (d', r''))
    (hrunning' : statusDone f.exp d' = false) (s1 : Byte) (pcnt : Nat) :
    Leads s (f.spinAt .pl1 s1 pcnt) r (pollExit { f.spinAt .pl2 d (pcnt + 1) with s2 := d' } .failure) r'' := by
  have hfirst : rowNext s.cfg.toParams (f.spinAt .pl1 s1 pcnt) d = f.spinAt .pl2 d (pcnt + 1) := by
    rw [rowNext_pl1 _ _ rfl, if_neg (by simp [Fce.spinAt, hrunning]), if_pos hexceeded]; rfl
  have hsecond : rowNext s.cfg.toParams (f.spinAt .pl2 d (pcnt + 1)) d' =
      pollExit { f.spinAt .pl2 d (pcnt + 1) with s2 := d' } .failure := by
    rw [rowNext_pl2 _ _ rfl, if_neg (by simp [Fce.spinAt, hrunning'])]
  exact (hfirst ▸ pl1_leads hwin hpolling hload s1 pcnt).trans (hsecond ▸ pl2_leads hwin hpolling hagain d (pcnt + 1))

end

end Sys2Proof.Machine
end

section
/-! PROOFS. The reference device in the middle of a program or an erase; `ERASE_BLOCK`, `PROGRAM_BYTE` and `READ` on it
from acceptance to their end. -/

namespace Sys2Proof.Machine

/-! ### The device while an operation runs (R75 to R78) -/

namespace RefDev

/-- The busy status says neither "completed" nor "timing exceeded" (R76). -/
theorem busyStatus_running (r : RefDev) :
    statusDone r.bval r.busyStatus = false ∧ timingExceeded r.busyStatus = false := by
  unfold statusDone timingExceeded busyStatus
  cases r.bval.getLsbD 7 <;> decide

/-- The status of a failing program says "timing exceeded" and not "completed" (R76). -/
theorem busyStatus_exceeded (r : RefDev) :
    statusDone r.bval (r.busyStatus ||| 0x20) = false ∧ timingExceeded (r.busyStatus ||| 0x20) = true := by
  unfold statusDone timingExceeded busyStatus
  cases r.bval.getLsbD 7 <;> decide

/-- A program of `v` at `a` that will succeed is running, `left` loads before its end. -/
structure Programs (arr : Memory) (a : Nat) (v : Byte) (left : Nat) (r : RefDev) : Prop where
  mode : r.mode = .prog
  bad : r.bad = false
  baddr : r.baddr = a
  bval : r.bval = v
  arr : r.arr = arr
  bleft : r.bleft = left

/-- A program of `v` that will fail is running, `left` loads before it reports. -/
structure FailsProgram (v : Byte) (left : Nat) (r : RefDev) : Prop where
  mode : r.mode = .prog
  cpos : r.cpos = .p0
  bad : r.bad = true
  bval : r.bval = v
  dq5left : r.dq5left = left

/-- An erase of block `b` that will succeed is running. -/
structure Erases (arr : Memory) (b : Nat) (r : RefDev) : Prop where
  mode : r.mode = .erase
  cpos : r.cpos = .p0
  bad : r.bad = false
  bblk : r.bblk = b
  arr : r.arr = arr

/-- The device is back in read mode with this array and no command begun. -/
structure Reads (arr : Memory) (r : RefDev) : Prop where
  mode : r.mode = .read
  cpos : r.cpos = .p0
  arr : r.arr = arr

section
variable {c : Params} {r : RefDev} {arr : Memory} {a b n : Nat} {v : Byte}

/-- A value that needs no bit raised starts a program that will succeed (R75). -/
theorem startProgram_programs (h : Contract.programmable (r.arr.read a) v) :
    Programs r.arr a v r.currentDraws.progReads (r.startProgram a v) := by
  unfold Contract.programmable at h
  constructor <;> simp [startProgram, h]

/-- A value that needs a bit raised starts a program that will fail (R75). -/
theorem startProgram_fails (h : ¬ Contract.programmable (r.arr.read a) v) :
    FailsProgram v r.currentDraws.dq5Reads (r.startProgram a v) := by
  unfold Contract.programmable at h
  constructor <;> simp [startProgram, h]

theorem startErase_erases (h : r.currentDraws.eraseBad = false) : Erases r.arr b (r.startErase b) :=
  ⟨rfl, rfl, h, rfl, rfl⟩

theorem Programs.load_busy (h : Programs arr a v (n + 1) r) :
    ∃ r', r.AnswersBusy c a v r' ∧ Programs arr a v n r' := by
  obtain ⟨hrunning, hintime⟩ := r.busyStatus_running
  refine ⟨{ r with bleft := n }, ⟨r.busyStatus, ?_, h.bval ▸ hrunning, hintime⟩, { h with bleft := rfl }⟩
  simp [load, loadProg, h.mode, h.bad, h.bleft]

theorem Programs.load_last (h : Programs arr a v 0 r) :
    ∃ r', r.load c a = (v, r') ∧ r'.mode = .read ∧ r'.arr = arr.write a v := by
  refine ⟨{ r with arr := arr.write a v, mode := .read }, ?_, rfl, rfl⟩
  simp [load, loadProg, h.mode, h.bad, h.bleft, h.baddr, h.bval, h.arr]

theorem FailsProgram.load_busy (h : FailsProgram v (n + 1) r) :
    ∃ r', r.AnswersBusy c a v r' ∧ FailsProgram v n r' := by
  obtain ⟨hrunning, hintime⟩ := r.busyStatus_running
  refine ⟨{ r with dq5left := n }, ⟨r.busyStatus, ?_, h.bval ▸ hrunning, hintime⟩, { h with dq5left := rfl }⟩
  simp [load, loadProg, h.mode, h.bad, h.dq5left]

/-- The failure is reported in the same way by every further load (R76). -/
theorem FailsProgram.load_last (h : FailsProgram v 0 r) :
    ∃ d r', r.load c a = (d, r') ∧ r'.load c a = (d, r') ∧ statusDone v d = false ∧ timingExceeded d = true ∧
      r'.mode = .fail ∧ r'.cpos = .p0 := by
  obtain ⟨hrunning, hexceeded⟩ := r.busyStatus_exceeded
  refine ⟨r.busyStatus ||| 0x20, { r with fstat := r.busyStatus ||| 0x20, mode := .fail }, ?_, rfl, h.bval ▸ hrunning,
    hexceeded, rfl, h.cpos⟩
  simp [load, loadProg, h.mode, h.bad, h.dq5left]

theorem Erases.load_busy (h : Erases arr b r) (hbleft : r.bleft = n + 1) :
    r.load c a = (r.eraseStartedBit, { r with dq3left := r.dq3left - 1, bleft := n }) := by
  simp [load, loadErase, h.mode, h.bad, hbleft]

/-- The load that ends the erase reads the erased array. -/
theorem Erases.load_last (h : Erases arr b r) (hbleft : r.bleft = 0) :
    ∃ r', r.load c a = ((erasedArray c b arr).read a, r') ∧ Reads (erasedArray c b arr) r' := by
  refine ⟨{ r with dq3left := r.dq3left - 1, arr := erasedArray c b arr, mode := .read }, ?_, rfl, h.cpos, rfl⟩
  simp [load, loadErase, h.mode, h.bad, h.bblk, h.arr, hbleft]

theorem Reads.load (h : Reads arr r) : r.load c a = (arr.read a, r) := by
  simp [RefDev.load, h.mode, h.arr]

theorem erasedArray_erased (c : Params) (b : Nat) (m : Memory) :
    Contract.erased c b m.read (erasedArray c b m).read := by
  refine ⟨fun a hlow hhigh => ?_, fun a hout => ?_⟩
  · simp [erasedArray, Memory.read_erase, hlow, hhigh, Memory.unlisted]
  · simp [erasedArray, Memory.read_erase, hout]

theorem erasedArray_offset (h : 0 < blockSize c b) (m : Memory) :
    (erasedArray c b m).read (blockOffset c b) = 0xFF :=
  (erasedArray_erased c b m).1 _ le_rfl (by omega)

/-- The erase is before the end of its erase-started window: `n` loads until it says so or ends, `bound` loads until it
ends. -/
structure EraseStarts (arr : Memory) (b bound n : Nat) (r : RefDev) : Prop where
  erases : Erases arr b r
  left : min r.dq3left r.bleft = n
  bounded : r.bleft < bound

/-- The erase ends after `n` loads, or has ended. -/
def EraseEnds (c : Params) (arr : Memory) (b n : Nat) (r : RefDev) : Prop :=
  (Erases arr b r ∧ r.bleft = n) ∨ (n = 0 ∧ Reads (erasedArray c b arr) r)

theorem EraseStarts.load_busy {bound : Nat} (h : EraseStarts arr b bound (n + 1) r) :
    ∃ d r', r.load c a = (d, r') ∧ eraseStarted d = false ∧ EraseStarts arr b bound n r' := by
  obtain ⟨herases, hleft, hbounded⟩ := h
  obtain ⟨k, hk⟩ : ∃ k, r.bleft = k + 1 := ⟨r.bleft - 1, by omega⟩
  refine ⟨_, _, herases.load_busy hk, ?_, { herases with }, ?_, ?_⟩
  · have hdq3 : r.dq3left ≠ 0 := by omega
    simp [eraseStartedBit, hdq3, eraseStarted]
  · change min (r.dq3left - 1) k = n; omega
  · change k < bound; omega

theorem EraseStarts.load_last {bound : Nat} (h : EraseStarts arr b bound 0 r) (hsize : 0 < blockSize c b) :
    ∃ d r', r.load c (blockOffset c b) = (d, r') ∧ eraseStarted d = true ∧ ∃ n < bound, EraseEnds c arr b n r' := by
  obtain ⟨herases, hleft, hbounded⟩ := h
  cases hk : r.bleft with
  | zero =>
    obtain ⟨r', hload, hreads⟩ := herases.load_last (c := c) (a := blockOffset c b) hk
    rw [erasedArray_offset hsize] at hload
    exact ⟨_, r', hload, rfl, 0, by omega, .inr ⟨rfl, hreads⟩⟩
  | succ k =>
    have hdq3 : r.dq3left = 0 := by omega
    exact ⟨_, _, herases.load_busy hk, by simp [eraseStartedBit, hdq3, eraseStarted], k, by omega,
      .inl ⟨{ herases with }, rfl⟩⟩

theorem EraseEnds.load_busy (h : EraseEnds c arr b (n + 1) r) :
    ∃ r', r.AnswersBusy c a 0xFF r' ∧ EraseEnds c arr b n r' := by
  obtain ⟨herases, hk⟩ | ⟨hzero, -⟩ := h
  · have hstatus : statusDone 0xFF r.eraseStartedBit = false ∧ timingExceeded r.eraseStartedBit = false := by
      unfold eraseStartedBit
      split_ifs <;> decide
    exact ⟨_, ⟨_, herases.load_busy hk, hstatus⟩, .inl ⟨{ herases with }, rfl⟩⟩
  · exact absurd hzero (Nat.succ_ne_zero n)

theorem EraseEnds.load_last (h : EraseEnds c arr b 0 r) (hsize : 0 < blockSize c b) :
    ∃ r', r.load c (blockOffset c b) = (0xFF, r') ∧ Reads (erasedArray c b arr) r' := by
  rw [← erasedArray_offset hsize arr]
  obtain ⟨herases, hk⟩ | ⟨-, hreads⟩ := h
  · exact herases.load_last hk
  · exact ⟨r, hreads.load, hreads⟩

end
end RefDev

/-- The offset of a block that has bytes is in that block only (R9). -/
theorem blockHolding_blockOffset (c : Cfg) {b : Nat} (hb : b < c.numBlocks) (hsize : 0 < blockSize c.toParams b) :
    blockHolding c.toParams (blockOffset c.toParams b) = some b := by
  obtain ⟨-, ⟨-, -, -, -, -, -, hdisjoint⟩, -⟩ := cfgOk c
  unfold blockHolding
  cases hfind : (List.range c.numBlocks).find? _ with
  | none =>
    have := List.find?_eq_none.mp hfind b (List.mem_range.mpr hb)
    simp [hsize] at this
  | some x =>
    have hx : x < c.numBlocks := List.mem_range.mp (List.mem_of_find?_eq_some hfind)
    have hholds := List.find?_some hfind
    simp only [decide_eq_true_eq] at hholds
    by_contra hne
    have hapart := hdisjoint x hx b hb fun h => hne (congrArg some h)
    simp only [blockOffset, blockSize] at hholds hsize
    omega

/-! ### Whole operations -/

theorem statusDone_self (v : Byte) : statusDone v v = true := beq_self_eq_true _

section
variable {s : State} {f g : Fce} {r : RefDev}

/-- A run that enters its one reset sequence ends with the code it saved, the device in read mode. -/
theorem Leads.thenReset {code : ResultCode} {r' : RefDev} (h : Leads s f r (Fce.resetting 1 code g) r')
    (hwin : s.winEn = true) (hmode : r'.mode = .read ∨ r'.mode = .fail) (hcpos : r'.cpos = .p0) :
    Leads s f r (Fce.ended code { g with rsLeft := 0, res := code }) { r' with mode := .read } := by
  have hreset := (seqReset_drives (f := g) hwin code r').leads
  obtain hread | hfail := hmode
  · exact h.trans (RefDev.storeAll_seqReset (.inl hread) hcpos ▸ hreset)
  · exact h.trans (RefDev.storeAll_seqReset_failed hfail hcpos ▸ hreset)

/-- The spins of an erase on a healthy device, from the first load of row DQ3 to the exit of R124. -/
theorem eraseSpins_lead (hwin : s.winEn = true) (hpolling : g.polling s.cfg.toParams) (hop : g.op = 0x02)
    {b n : Nat} (hpaddr : g.paddr = blockOffset s.cfg.toParams b) (hexp : g.exp = 0xFF)
    (hsize : 0 < blockSize s.cfg.toParams b) {arr : Memory} (hstarts : r.EraseStarts arr b s.cfg.pollBound n)
    (hn : n < s.cfg.dq3Bound) (s1 : Byte) :
    ∃ g' r', Leads s (g.spinAt .dq3 s1 0) r (Fce.resetting 1 .ok g') r' ∧
      r'.Reads (RefDev.erasedArray s.cfg.toParams b arr) := by
  have hwindow := polling_lt hpolling
  obtain ⟨s1, n1, r1, hspin, hstarts⟩ := dq3_spins hwin hwindow (fun _ _ h => h.load_busy) hstarts hn s1
  obtain ⟨d, r2, hload, hset, m, hm, hends⟩ := hstarts.load_last hsize
  have hstart := dq3_starts hwin hwindow (hpaddr ▸ hload) hset s1 n1
  obtain ⟨s2, n2, r3, hpoll, hends⟩ := pl1_spins hwin hpolling (fun _ _ h => hexp ▸ h.load_busy) hends hm d
  obtain ⟨r4, hlast, hreads⟩ := hends.load_last hsize
  have hexit := pl1_succeeds hwin hpolling (hpaddr ▸ hlast) (hexp ▸ statusDone_self _) s2 n2
  rw [pollExit, if_pos (by exact hop)] at hexit
  exact ⟨_, _, hspin.trans (hstart.trans (hpoll.trans hexit)), hreads⟩

/-- An accepted erase of a block that has bytes, on a healthy device: it ends `Ok` with the block erased (R129, R66). -/
theorem erase_leads (hwin : s.winEn = true) (herasing : f.erasing s.cfg.toParams)
    (hsize : 0 < blockSize s.cfg.toParams f.blk.toNat) (hmode : r.mode = .read) (hcpos : r.cpos = .p0)
    (hhealthy : r.currentDraws.eraseBad = false) (hdq3 : r.currentDraws.dq3Reads < s.cfg.dq3Bound)
    (hreads : r.currentDraws.eraseReads < s.cfg.pollBound) :
    ∃ g r', Leads s (f.goTo .er1) r (Fce.ended .ok g) r' ∧
      r'.Reads (RefDev.erasedArray s.cfg.toParams f.blk.toNat r.arr) := by
  have ⟨hop, hblk, _⟩ := herasing
  have hcommand := (seqBlockErase_drives hwin herasing rfl r).leads
  rw [RefDev.storeAll_seqBlockErase (.inl hmode) hcpos (blockHolding_blockOffset _ hblk hsize)] at hcommand
  have hstarts : (r.startErase f.blk.toNat).EraseStarts r.arr f.blk.toNat s.cfg.pollBound
      (min r.currentDraws.dq3Reads r.currentDraws.eraseReads) := ⟨RefDev.startErase_erases hhealthy, rfl, hreads⟩
  obtain ⟨g, r', hspins, hreads⟩ := eraseSpins_lead
    (g := { f with paddr := blockOffset s.cfg.toParams f.blk.toNat, exp := 0xFF }) hwin (.inl ⟨herasing, rfl, rfl⟩) hop
    rfl rfl hsize hstarts (by omega) f.s1
  exact ⟨_, _, (hcommand.trans hspins).thenReset hwin (.inl hreads.mode) hreads.cpos, rfl, hreads.cpos, hreads.arr⟩

/-- An accepted program of a byte that needs no bit raised, on a healthy device: it ends `Ok` with the byte programmed
(R130, R67). -/
theorem program_leads (hwin : s.winEn = true) (hprogramming : f.programming s.cfg.toParams) (hop : f.op = 0x03)
    (hcycle : f.programCycle = ⟨f.addr, f.val⟩) (hmode : r.mode = .read) (hcpos : r.cpos = .p0)
    (hprogrammable : Contract.programmable (r.arr.read f.addr) f.val)
    (hreads : r.currentDraws.progReads < s.cfg.pollBound) :
    ∃ g r', Leads s (f.goTo .pg1) r (Fce.ended .ok g) r' ∧ r'.mode = .read ∧ r'.arr = r.arr.write f.addr f.val := by
  have hcommand := (seqProgram_drives hwin hprogramming hcycle r).leads
  rw [RefDev.storeAll_seqProgram (.inl hmode) hcpos] at hcommand
  have hpolling : Fce.polling s.cfg.toParams { f with paddr := f.addr, exp := f.val } :=
    .inr ⟨hprogramming, congrArg Cycle.offset hcycle.symm⟩
  obtain ⟨s1, n, r1, hspin, hlast⟩ := pl1_spins hwin hpolling (fun _ _ h => h.load_busy)
    (RefDev.startProgram_programs hprogrammable) hreads f.s1
  obtain ⟨r2, hload, hmode', harr⟩ := hlast.load_last (c := s.cfg.toParams)
  have hexit := pl1_succeeds hwin hpolling hload (statusDone_self _) s1 n
  rw [pollExit, if_neg (by simp [Fce.spinAt, hop]), if_pos (by exact hop)] at hexit
  exact ⟨_, _, hcommand.trans (hspin.trans hexit), hmode', harr⟩

/-- An accepted program of a byte that needs a bit raised: it ends `ProgramFailed` with the device in read mode again
(R130, R67, R79). -/
theorem programFails_leads (hwin : s.winEn = true) (hprogramming : f.programming s.cfg.toParams) (hop : f.op = 0x03)
    (hcycle : f.programCycle = ⟨f.addr, f.val⟩) (hmode : r.mode = .read) (hcpos : r.cpos = .p0)
    (hraises : ¬ Contract.programmable (r.arr.read f.addr) f.val)
    (hreports : r.currentDraws.dq5Reads < s.cfg.pollBound) :
    ∃ g r', Leads s (f.goTo .pg1) r (Fce.ended .programFailed g) r' ∧ r'.mode = .read := by
  have hcommand := (seqProgram_drives hwin hprogramming hcycle r).leads
  rw [RefDev.storeAll_seqProgram (.inl hmode) hcpos] at hcommand
  have hpolling : Fce.polling s.cfg.toParams { f with paddr := f.addr, exp := f.val } :=
    .inr ⟨hprogramming, congrArg Cycle.offset hcycle.symm⟩
  obtain ⟨s1, n, r1, hspin, hlast⟩ := pl1_spins hwin hpolling (fun _ _ h => h.load_busy)
    (RefDev.startProgram_fails hraises) hreports f.s1
  obtain ⟨d, r2, hload, hagain, hrunning, hexceeded, hfail, hcpos'⟩ := hlast.load_last (c := s.cfg.toParams)
  have hexit := pl1_fails hwin hpolling hload hrunning hexceeded hagain hrunning s1 n
  rw [pollExit, if_neg (by simp [Fce.spinAt, hop]), if_pos (by exact hop)] at hexit
  exact ⟨_, _, (hcommand.trans (hspin.trans hexit)).thenReset hwin (.inr hfail) hcpos', rfl⟩

/-- An accepted `PROGRAM_BYTE` is at its one element. -/
theorem programming_of_byte {c : Params} (hop : f.op = 0x03) (hidx : f.idx = 0) (hid : f.idValid = true)
    (haddr : f.addr < c.flashSize) : f.programming c ∧ f.programCycle = ⟨f.addr, f.val⟩ :=
  ⟨⟨hid, .inl ⟨hop, hidx, haddr⟩⟩, by simp [Fce.programCycle, hop, hidx]⟩

/-- A request whose run ends with a code completes with it. -/
theorem Leads.completes {i : Instr} {code : ResultCode} {r' : RefDev} (h : Leads s f r (Fce.ended code g) r')
    (hdev : s.dev = .refDev r) (haccepted : exec i s = .next { s with fce := f }) :
    ∃ events, Completes i s events (onDevice s (Fce.ended code g) r' events) := by
  obtain ⟨events, h⟩ := h
  exact ⟨events, h.completes hdev haccepted rfl rfl⟩

/-- `READ` of an address of the window, the device in read mode (R132, R63). -/
theorem read_completes {o : Operands} (hidle : s.fce.phase = .idle) (hwin : s.winEn = true)
    (haddr : o.addr < s.cfg.flashSize) (hdev : s.dev = .refDev r) (hmode : r.mode = .read) :
    ∃ w, Completes (.read o) s [.r o.addr (r.arr.read o.addr)] w ∧ w.fce.rdata = r.arr.read o.addr := by
  let f := (s.fce.latched s.cfg.toParams 0x05 o).goTo .rd
  have haccepted : exec (.read o) s = .next { s with fce := f } := by
    rw [read_idle o s hidle]
    simp [acceptance, Nat.not_le.mpr haddr, f, Fce.goTo]
  have hlatched : f.addr = o.addr := latched_addr s.cfg 0x05 s.fce haddr
  have hload : r.load s.cfg.toParams o.addr = (r.arr.read o.addr, r) := by simp [RefDev.load, hmode]
  have hdrives : Drives s f r [.r o.addr (r.arr.read o.addr)] _ r :=
    .of_load hwin hload (fun _ => rd_runsItsRow rfl (by exact hlatched ▸ haddr)) hlatched (hlatched ▸ rfl)
  exact ⟨_, hdrives.completes hdev haccepted rfl rfl, rfl⟩

end

/-! ### The obligations -/

/-- Settles O58: the erase starts in the latched block, both spins outlast it, and a reset sequence follows. -/
theorem eraseBlockErases : Obligations.EraseBlockErases := by
  unfold Obligations.EraseBlockErases
  intro s o r hidle hwin hid hblk hsize hdev hmode hcpos hhealthy hdq3 hreads
  have haccepted : exec (.eraseBlock o) s = .next { s with fce := (s.fce.latched s.cfg.toParams 0x02 o).goTo .er1 } := by
    rw [eraseBlock_idle o s hidle]
    simp [acceptance, Nat.not_le.mpr hblk, hid, Fce.goTo]
  obtain ⟨g, r', hleads, hreads'⟩ := erase_leads (f := s.fce.latched s.cfg.toParams 0x02 o) hwin ⟨rfl, hblk, hid⟩
    hsize hmode hcpos hhealthy hdq3 hreads
  obtain ⟨events, hcompletes⟩ := hleads.completes hdev haccepted
  exact ⟨events, _, r', hcompletes, rfl, rfl, hreads'.mode, hreads'.arr ▸ RefDev.erasedArray_erased _ _ _⟩

/-- Settles O59: by whether the value needs a bit raised; `READ` then finds the device in read mode. -/
theorem programByteThenReadGivesTheValue : Obligations.ProgramByteThenReadGivesTheValue := by
  unfold Obligations.ProgramByteThenReadGivesTheValue
  intro s o r hidle hwin hid haddr hdev hmode hcpos
  let f := s.fce.latched s.cfg.toParams 0x03 o
  have haccepted : exec (.programByte o) s = .next { s with fce := f.goTo .pg1 } := by
    rw [programByte_idle o s hidle]
    simp [acceptance, Nat.not_le.mpr haddr, hid, Fce.goTo, f]
  have hlatched : f.addr = o.addr := latched_addr s.cfg 0x03 s.fce haddr
  obtain ⟨hprogramming, hcycle⟩ :=
    programming_of_byte (c := s.cfg.toParams) (f := f) rfl rfl hid (hlatched ▸ haddr)
  constructor
  · intro hprogrammable hreads
    obtain ⟨g, r', hleads, hmode', harr⟩ := program_leads hwin hprogramming rfl hcycle hmode hcpos
      (hlatched ▸ hprogrammable) hreads
    obtain ⟨events, hcompletes⟩ := hleads.completes hdev haccepted
    replace harr : r'.arr = r.arr.write o.addr o.val := hlatched ▸ harr
    have hprogrammed : Contract.programmed o.addr o.val r.arr.read r'.arr.read := by
      rw [harr]
      exact ⟨Memory.read_write_same _ _ _, fun a ha => Memory.read_write_other _ _ _ _ ha⟩
    obtain ⟨w, hread, hrdata⟩ :=
      read_completes (s := onDevice s (Fce.ended .ok g) r' events) (o := o) rfl hwin haddr rfl hmode'
    rw [hprogrammed.1] at hread hrdata
    exact ⟨events, _, r', w, hcompletes, rfl, rfl, hmode', hprogrammed, hread, hrdata⟩
  · intro hraises hreports
    obtain ⟨g, r', hleads, hmode'⟩ := programFails_leads hwin hprogramming rfl hcycle hmode hcpos
      (hlatched ▸ hraises) hreports
    obtain ⟨events, hcompletes⟩ := hleads.completes hdev haccepted
    exact ⟨events, _, r', hcompletes, rfl, rfl, hmode'⟩

end Sys2Proof.Machine
end

section
/-! PROOFS. The decoder and the encoder of R90 as inverses; the statements of 30_encoding.md on them. -/

namespace Sys2Proof.Machine

/-! ### The request opcodes (R100, R106) -/

/-- The opcodes R106 reserves are the ones whose request decodes to the reserved row. -/
theorem reservedOpcode_iff (op : Byte) : reservedOpcode op = true ↔ op = 0x00 ∨ 0x07 ≤ op.toNat := by
  simp [reservedOpcode, BitVec.toNat_eq]

theorem decodeReq_reserved {op : Byte} (h : op = 0x00 ∨ 0x07 ≤ op.toNat) (o : Operands) :
    decodeReq op o = .reservedRequest op o := by
  obtain ⟨rfl, -⟩ | ⟨rfl, -⟩ | ⟨rfl, -⟩ | ⟨rfl, -⟩ | ⟨rfl, -⟩ | ⟨rfl, -⟩ | ⟨-, hdecode⟩ := op_cases op o
  case inr.inr.inr.inr.inr.inr => exact hdecode
  all_goals simp at h

theorem encode_decodeReq (op : Byte) (o : Operands) : encode (decodeReq op o) = .req op o := by
  obtain ⟨rfl, h⟩ | ⟨rfl, h⟩ | ⟨rfl, h⟩ | ⟨rfl, h⟩ | ⟨rfl, h⟩ | ⟨rfl, h⟩ | ⟨-, h⟩ := op_cases op o <;> rw [h] <;> rfl

/-! ### The state codes (R102, R108) -/

theorem encode_instr (self : TestId) : encode self.instr = .tid self.code := by cases self <;> rfl

theorem encode_decodeTid (code : BitVec 3) : encode (decodeTid code) = .tid code := by
  obtain ⟨self, rfl, h⟩ | ⟨rfl, h⟩ := tid_cases code
  · rw [h, encode_instr]
  · rfl

/-! ### The store cycles (R91 to R95) -/

theorem isUnlock_iff (c1 c2 : Cycle) : isUnlock c1 c2 = true ↔ c1 = ⟨0xAAA, 0xAA⟩ ∧ c2 = ⟨0x555, 0x55⟩ := by
  simp [isUnlock]

/-- A list of store cycles that decodes is the encoding of a wire command. -/
theorem decodeCyc_ok {cs : List Cycle} {i : Instr} (h : decodeCyc cs = .ok i) :
    i.isWire = true ∧ encode i = .cyc cs := by
  unfold decodeCyc at h
  split at h
  case h_1 =>
    split_ifs at h with hunlock hautoselect hreset <;> obtain ⟨rfl, rfl⟩ := (isUnlock_iff _ _).mp hunlock <;> cases h
    · exact hautoselect ▸ ⟨rfl, rfl⟩
    · exact hreset ▸ ⟨rfl, rfl⟩
  case h_2 =>
    split_ifs at h with hunlock hprogram
    obtain ⟨rfl, rfl⟩ := (isUnlock_iff _ _).mp hunlock
    cases h
    exact hprogram ▸ ⟨rfl, rfl⟩
  case h_3 c6 =>
    split_ifs at h with hunlocks herase
    simp only [Bool.and_eq_true, isUnlock_iff] at hunlocks
    obtain ⟨⟨rfl, rfl⟩, rfl, rfl⟩ := hunlocks
    obtain ⟨offset, byte⟩ := c6
    obtain ⟨rfl, rfl⟩ : _ ∧ byte = 0x30 := herase
    cases h
    exact ⟨rfl, rfl⟩
  case h_4 => cases h

/-- The lengths of R110. -/
theorem cyclesOf_length {i : Instr} (h : i.isWire = true) :
    (cyclesOf i).length = 3 ∨ (cyclesOf i).length = 4 ∨ (cyclesOf i).length = 6 := by
  cases i <;> simp [Instr.isWire] at h <;> simp [cyclesOf, encode, unlockPair]

/-- An encoding decodes to its instruction, whatever its operands; the opcode of a reserved request has to be one R106
reserves. -/
theorem decode_encode {i : Instr} (h : ∀ op o, i = .reservedRequest op o → op = 0x00 ∨ 0x07 ≤ op.toNat) :
    decode (encode i) = .ok i := by
  cases i
  case reservedRequest op o => exact congrArg _ (decodeReq_reserved (h op o rfl) o)
  all_goals rfl

/-! ### The obligations -/

/-- Settles O1: by row; only the reserved request's opcode needs well-formedness. -/
theorem decodingInvertsEncoding : Obligations.DecodingInvertsEncoding := by
  unfold Obligations.DecodingInvertsEncoding
  intro c i hwf
  refine decode_encode ?_
  rintro op o rfl
  have ⟨hop, _⟩ := (Bool.and_eq_true _ _).mp hwf
  exact (reservedOpcode_iff op).mp hop

/-- Settles O2: by format. -/
theorem encodingInvertsDecoding : Obligations.EncodingInvertsDecoding := by
  unfold Obligations.EncodingInvertsDecoding
  constructor
  · intro e i h
    cases e with
    | req op o => cases h; exact encode_decodeReq op o
    | cyc cs => exact (decodeCyc_ok h).2
    | tid code => cases h; exact encode_decodeTid code
  · intro cs i h
    obtain ⟨hwire, hencode⟩ := decodeCyc_ok h
    have hcycles : cyclesOf i = cs := by rw [cyclesOf, hencode]
    exact hcycles ▸ cyclesOf_length hwire

/-- Settles O3: each word is the encoding of its row. -/
theorem writtenWordsDecode : Obligations.WrittenWordsDecode := by
  unfold Obligations.WrittenWordsDecode
  exact ⟨rfl, rfl, rfl, rfl, fun _ => ⟨rfl, rfl, rfl, rfl, rfl, rfl⟩, rfl, rfl, rfl, rfl, rfl, rfl, rfl⟩

end Sys2Proof.Machine
end

section
/-! PROOFS. Requests that end in their acceptance step; the stores of a wire command run from its first phase; the statements
of 30_encoding.md on them. -/

namespace Sys2Proof.Machine

/-! ### Requests that end at once (R106, R107) -/

section
variable {i : Instr} {o : Operands} {op : Byte} {code : ResultCode} {s : State}

/-- A request that is ended by its acceptance completes with no bus cycle (R122). -/
theorem completes_ended {f : Fce} (h : exec i s = .next { s with fce := f.ended code }) :
    Completes i s [] { s with fce := f.ended code } :=
  ⟨_, h, rfl, ⟨f.ended code, s.dev, s.draws, by simp⟩, rfl, rfl⟩

/-- A request accepted by a row of R121 that ends it. -/
theorem completes_of_acceptance (h : exec i s = .next { s with fce := acceptance s.cfg.toParams op o s.fce })
    (hended : acceptance s.cfg.toParams op o s.fce = (s.fce.latched s.cfg.toParams op o).ended code) :
    Completes i s [] { s with fce := (s.fce.latched s.cfg.toParams op o).ended code } :=
  completes_ended (hended ▸ h)

end

/-! ### The rows of R121 that end a request -/

section
variable {c : Params} {o : Operands} {f : Fce}

theorem acceptance_invalidBlock (h : c.numBlocks ≤ o.blk.toNat) :
    acceptance c 0x02 o f = (f.latched c 0x02 o).ended .invalidBlock := by simp [acceptance, h]

/-- Of a single address (R130, R132). -/
theorem acceptance_invalidAddress {op : Byte} (hop : op = 0x03 ∨ op = 0x05) (h : c.flashSize ≤ o.addr) :
    acceptance c op o f = (f.latched c op o).ended .invalidAddress := by
  obtain rfl | rfl := hop <;> simp [acceptance, h]

/-- Of a buffer's range (R131). -/
theorem acceptance_invalidRange (h : c.bufMax < o.len.toNat ∨ c.flashSize < o.addr + o.len.toNat) :
    acceptance c 0x04 o f = (f.latched c 0x04 o).ended .invalidAddress := by simp [acceptance, h]

/-- A destructive request with legal operands (R197). -/
theorem acceptance_notIdentified {op : Byte} (hid : f.idValid = false)
    (hlegal : op = 0x02 ∧ o.blk.toNat < c.numBlocks ∨ op = 0x03 ∧ o.addr < c.flashSize ∨
      op = 0x04 ∧ o.len.toNat ≤ c.bufMax ∧ o.addr + o.len.toNat ≤ c.flashSize) :
    acceptance c op o f = (f.latched c op o).ended .notIdentified := by
  obtain ⟨rfl, hblk⟩ | ⟨rfl, haddr⟩ | ⟨rfl, hlen, hrange⟩ := hlegal
  · simp [acceptance, hid, Nat.not_le.mpr hblk]
  · simp [acceptance, hid, Nat.not_le.mpr haddr]
  · simp [acceptance, hid, Nat.not_lt.mpr hlen, Nat.not_lt.mpr hrange]

end

/-! ### The stores of a wire command (R92 to R95) -/

/-- `i`, executed once for each of `events`, makes exactly these bus cycles, and nothing but FCE, DEV, the draw count and the
bus trace has changed. -/
def Issues (i : Instr) (s : State) (events : List BusEvent) : Prop :=
  ∃ t, execRun events.length i s = .next t ∧ FceOnly s events t

section
variable {i : Instr} {s t u : State} {events events' : List BusEvent}

theorem FceOnly.trans (h : FceOnly s events t) (h' : FceOnly t events' u) : FceOnly s (events ++ events') u := by
  obtain ⟨f, dev, draws, rfl⟩ := h
  obtain ⟨f', dev', draws', rfl⟩ := h'
  exact ⟨f', dev', draws', by simp⟩

theorem Issues.nil : Issues i s [] := ⟨s, rfl, s.fce, s.dev, s.draws, by simp⟩

/-- A store with register writes, then what follows. -/
theorem Issues.cons {a : Nat} {d : Byte} (g : Fce → Fce) (h : exec i s = .next ((busWrite a d s).onFce g))
    (hrest : Issues i ((busWrite a d s).onFce g) events) : Issues i s (.w a d :: events) := by
  obtain ⟨t, hrun, honly⟩ := hrest
  exact ⟨t, by simpa only [List.length_cons, execRun, h] using hrun, (storeRow s a d g).1.trans honly⟩

/-- A store that only goes on to phase `q`, then what follows. -/
theorem Issues.storeTo {a : Nat} {d : Byte} (q : Phase) (h : exec i s = .next (toPhase q (busWrite a d s)))
    (hrest : Issues i (toPhase q (busWrite a d s)) events) : Issues i s (.w a d :: events) :=
  .cons (fun f => { f with phase := q }) h hrest

theorem seqAutoselect_issues (hp : s.fce.phase = .as1) : Issues .seqAutoselect s (wireEvents .seqAutoselect) :=
  .storeTo .as2 (by simp only [exec, execSeqAutoselect, hp, unlock1]) <|
  .storeTo .as3 rfl <| .storeTo .idr1 rfl .nil

theorem seqReset_issues (hp : s.fce.phase = .rs1) : Issues .seqReset s (wireEvents .seqReset) :=
  .storeTo .rs2 (by simp only [exec, execSeqReset, hp, unlock1]) <|
  .storeTo .rs3 rfl <| .cons Fce.sequenceEnded (congrArg _ (resetSequenceDone_eq _)) .nil

/-- The data store of a program and the confirm store of an erase, at an offset of the window. -/
theorem Issues.expect {a : Nat} {d v : Byte} {p : Phase} (ha : a < s.cfg.flashSize)
    (h : exec i s = inWindow a s (.next (toPhase p (expect a v (busWrite a d s))))) : Issues i s [.w a d] :=
  .cons (fun f => { f with paddr := a, exp := v, pcnt := 0, phase := p }) (h.trans (inWindow_of_lt s _ ha)) .nil

theorem seqProgram_issues {a : Nat} {v : Byte} (hp : s.fce.phase = .pg1) (ha : a < s.cfg.flashSize) :
    Issues (.seqProgram a v) s (wireEvents (.seqProgram a v)) :=
  .storeTo .pg2 (by simp only [exec, execSeqProgram, hp, unlock1]) <|
  .storeTo .pg3 rfl <| .storeTo .pg4 rfl <| .expect (by simpa using ha) rfl

theorem seqBlockErase_issues {a : Nat} (hp : s.fce.phase = .er1) (ha : a < s.cfg.flashSize) :
    Issues (.seqBlockErase a) s (wireEvents (.seqBlockErase a)) :=
  .storeTo .er2 (by simp only [exec, execSeqBlockErase, hp, unlock1]) <|
  .storeTo .er3 rfl <| .storeTo .er4 rfl <| .storeTo .er5 rfl <| .storeTo .er6 rfl <| .expect (by simpa using ha) rfl

end

theorem wireEvents_length (i : Instr) : (wireEvents i).length = (cyclesOf i).length := List.length_map _

/-! ### The obligations -/

/-- Settles O11: the reserved row of R121 ends the request it accepts. -/
theorem reservedOpcodeEndsAtOnce : Obligations.ReservedOpcodeEndsAtOnce := by
  unfold Obligations.ReservedOpcodeEndsAtOnce
  intro op o s hop hidle
  exact ⟨decodeReq_reserved hop o, completes_ended (reserved_idle o s hidle op)⟩

/-- Settles O12: each request is its row of R121, and the row ends it. -/
theorem validationErrorsTouchNoHardware : Obligations.ValidationErrorsTouchNoHardware := by
  unfold Obligations.ValidationErrorsTouchNoHardware
  intro o s hidle
  have herase := eraseBlock_idle o s hidle
  have hbyte := programByte_idle o s hidle
  have hbuffer := programBuffer_idle o s hidle
  refine ⟨fun hblk => ?_, fun haddr => ?_, fun hrange => ?_, fun haddr => ?_, fun hid => ⟨fun hblk => ?_, fun haddr => ?_,
    fun hlen hrange => ?_⟩⟩
  · exact completes_of_acceptance herase (acceptance_invalidBlock hblk)
  · exact completes_of_acceptance hbyte (acceptance_invalidAddress (.inl rfl) haddr)
  · exact completes_of_acceptance hbuffer (acceptance_invalidRange hrange)
  · exact completes_of_acceptance (read_idle o s hidle) (acceptance_invalidAddress (.inr rfl) haddr)
  · exact completes_of_acceptance herase (acceptance_notIdentified hid (.inl ⟨rfl, hblk⟩))
  · exact completes_of_acceptance hbyte (acceptance_notIdentified hid (.inr (.inl ⟨rfl, haddr⟩)))
  · exact completes_of_acceptance hbuffer (acceptance_notIdentified hid (.inr (.inr ⟨rfl, hlen, hrange⟩)))

/-- Settles O19: by wire command, phase by phase. -/
theorem wireCommandIssuesItsEncoding : Obligations.WireCommandIssuesItsEncoding := by
  unfold Obligations.WireCommandIssuesItsEncoding
  intro i s hwire hp hprogram herase
  rw [← wireEvents_length]
  cases i <;> simp only [Instr.isWire, Bool.false_eq_true] at hwire
  case seqAutoselect => exact seqAutoselect_issues hp
  case seqReset => exact seqReset_issues hp
  case seqProgram a v => exact seqProgram_issues hp (hprogram a v rfl)
  case seqBlockErase a => exact seqBlockErase_issues hp (herase a rfl)

end Sys2Proof.Machine
end

section
/-! PROOFS. FCE's load of a status byte run twice, with answers that agree on the bits FCE reads (R97, R109). -/

namespace Sys2Proof.Machine

/-- FCE's registers with the two that hold a status byte cleared. -/
def Fce.withoutStatus (f : Fce) : Fce := { f with s1 := 0, s2 := 0 }

/-- `u` and `u'` agree on DEV and on every register of FCE but `s1` and `s2`. -/
structure SameButStatus (u u' : State) : Prop where
  dev : u'.dev = u.dev
  fce : u'.fce.withoutStatus = u.fce.withoutStatus

/-- If `x` answers a next state, `x'` answers one that agrees with it. -/
def Follows (x x' : Result) : Prop := ∀ t, x = .next t → ∃ t', x' = .next t' ∧ SameButStatus t t'

/-- No exit of R124 reads a status byte. -/
theorem pollExit_withoutStatus (f : Fce) (r : PollResult) :
    (pollExit f r).withoutStatus = pollExit f.withoutStatus r := by
  cases r <;> simp only [pollExit, apply_ite Fce.withoutStatus] <;> rfl

section
variable {s u u' : State} {x x' : Result}

theorem SameButStatus.op (h : SameButStatus u u') : u'.fce.op = u.fce.op := by
  simpa [Fce.withoutStatus] using congrArg Fce.op h.fce

/-- Writes of registers that read no status byte. -/
theorem SameButStatus.onFce (h : SameButStatus u u') {g : Fce → Fce}
    (hg : ∀ f, (g f).withoutStatus = g f.withoutStatus) : SameButStatus (u.onFce g) (u'.onFce g) where
  dev := by simpa using h.dev
  fce := by rw [State.onFce_fce, State.onFce_fce, hg, hg, h.fce]

theorem SameButStatus.next (h : SameButStatus u u') : Follows (.next u) (.next u') := by
  rintro t ⟨⟩
  exact ⟨u', rfl, h⟩

theorem Follows.inWindow {a : Nat} (hcfg : u'.cfg = u.cfg) (h : Follows x x') :
    Follows (inWindow a u x) (inWindow a u' x') := by
  intro t ht
  obtain ⟨ha, ht⟩ := inWindow_next u ht
  rw [inWindow_of_lt u' x' (hcfg ▸ ha)]
  exact h t ht

/-- An exit of completion detection: it is the one of its operation, and the operation is the same. -/
theorem SameButStatus.exit {exit : State → Result} {r : PollResult} (h : SameButStatus u u')
    (hop : ∀ {s t}, exit s = .next t → s.fce.op = 0x02 ∨ s.fce.op = 0x03 ∨ s.fce.op = 0x04)
    (hexit : ∀ s, s.fce.op = 0x02 ∨ s.fce.op = 0x03 ∨ s.fce.op = 0x04 → exit s = .next { s with fce := pollExit s.fce r }) :
    Follows (exit u) (exit u') := by
  intro t ht
  have hu := hop ht
  cases (hexit u hu).symm.trans ht
  refine ⟨_, hexit u' (h.op ▸ hu), h.dev, ?_⟩
  simp only [pollExit_withoutStatus, h.fce]

theorem SameButStatus.success (h : SameButStatus u u') : Follows (pollSuccess u) (pollSuccess u') :=
  h.exit (fun ht => exit_op (.inl ht)) pollSuccess_eq

theorem SameButStatus.failure (h : SameButStatus u u') : Follows (pollFailure u) (pollFailure u') :=
  h.exit (fun ht => exit_op (.inr (.inl ht))) pollFailure_eq

theorem SameButStatus.timeout (h : SameButStatus u u') : Follows (pollTimeout u) (pollTimeout u') :=
  h.exit (fun ht => exit_op (.inr (.inr ht))) pollTimeout_eq

end

/-! ### A status load, answered `d` or `d'` -/

/-- `s`, its scripted device answering `d` next. -/
def State.answering (d : Byte) (rest : List Byte) (s : State) : State := { s with dev := .oracle (d :: rest) }

@[simp] theorem State.answering_fce (d : Byte) (rest : List Byte) (s : State) : (s.answering d rest).fce = s.fce := by
  cases s; rfl

@[simp] theorem State.answering_cfg (d : Byte) (rest : List Byte) (s : State) : (s.answering d rest).cfg = s.cfg := by
  cases s; rfl

section
variable {s : State} {d d' : Byte} {rest : List Byte} (hwin : s.winEn = true)
include hwin

theorem devAnswer_answering (d : Byte) (a : Nat) : devAnswer a (s.answering d rest) = d :=
  (busRead_oracle (s.answering d rest) a d rest hwin rfl).1

/-- The load of a status byte and the writes of registers that differ at most in `s1` and `s2`. -/
theorem statusRead_same {a : Nat} {g g' : Fce → Fce} (hg : (g' s.fce).withoutStatus = (g s.fce).withoutStatus) :
    SameButStatus ((busRead a (s.answering d rest)).onFce g) ((busRead a (s.answering d' rest)).onFce g') := by
  rw [(busRead_oracle (s.answering d rest) a d rest hwin rfl).2, (busRead_oracle (s.answering d' rest) a d' rest hwin rfl).2]
  exact ⟨rfl, hg⟩

theorem statusLoad_same : SameButStatus (statusLoad (s.answering d rest)) (statusLoad (s.answering d' rest)) :=
  statusRead_same hwin rfl

/-- Row DQ3 reads bit 3. -/
theorem spinEraseStarted_follows (hbit3 : eraseStarted d = eraseStarted d') :
    Follows (.next (spinEraseStarted (s.answering d rest))) (.next (spinEraseStarted (s.answering d' rest))) := by
  have hload := statusLoad_same (d := d) (d' := d') (rest := rest) hwin
  refine SameButStatus.next ?_
  simp only [spinEraseStarted, devAnswer_answering hwin, ← hbit3, State.answering_fce, State.answering_cfg,
    toPhase_eq, enterReset_eq, onFce_onFce]
  split_ifs
  · exact hload.onFce fun _ => rfl
  · exact hload.onFce fun _ => rfl
  · exact hload

/-- Row PL1 reads bits 7 and 5. -/
theorem pollFirst_follows (hbit7 : statusDone s.fce.exp d = statusDone s.fce.exp d')
    (hbit5 : timingExceeded d = timingExceeded d') :
    Follows (pollFirst (s.answering d rest)) (pollFirst (s.answering d' rest)) := by
  have hload := statusLoad_same (d := d) (d' := d') (rest := rest) hwin
  simp only [pollFirst, devAnswer_answering hwin, ← hbit7, ← hbit5, State.answering_fce, State.answering_cfg, toPhase_eq]
  split_ifs
  · exact hload.success
  · exact SameButStatus.next (hload.onFce fun _ => rfl)
  · exact hload.timeout
  · exact hload.next

/-- Row PL2 reads bit 7. -/
theorem pollAgain_follows (hbit7 : statusDone s.fce.exp d = statusDone s.fce.exp d') :
    Follows (pollAgain (s.answering d rest)) (pollAgain (s.answering d' rest)) := by
  simp only [pollAgain, devAnswer_answering hwin, ← hbit7, State.answering_fce]
  split_ifs
  · exact SameButStatus.success (statusRead_same hwin rfl)
  · exact SameButStatus.failure (statusRead_same hwin rfl)

end

/-! ### The obligation -/

/-- Settles O26: by row; each reads only its own bits, and the two loads leave states that agree. -/
theorem otherStatusBitsAreIgnored : Obligations.OtherStatusBitsAreIgnored := by
  unfold Obligations.OtherStatusBitsAreIgnored
  intro s d d' rest hwin hdev hphase hbit7 hbit5 hbit3
  have hs : s.answering d rest = s := by rw [State.answering, ← hdev]
  have hdone : statusDone s.fce.exp d = statusDone s.fce.exp d' := congrArg (· == _) hbit7
  suffices h : Follows (fceStep (s.answering d rest)) (fceStep (s.answering d' rest)) by
    intro t ht
    obtain ⟨t', ht', hsame⟩ := h t (hs ▸ ht)
    exact ⟨t', ht', hsame.dev, hsame.fce⟩
  obtain hp | hp | hp := hphase <;>
    simp only [fceStep, phaseCommand, fceLoad, State.answering, hp] <;> refine .inWindow rfl ?_
  · exact spinEraseStarted_follows hwin hbit3
  · exact pollFirst_follows hwin hdone hbit5
  · exact pollAgain_follows hwin hdone

end Sys2Proof.Machine
end

section
/-! PROOFS. Who writes `cur` (R28, R151): the return of a dispatch and a reset, and neither writes the reserved code or
code 0 (R108). -/

namespace Sys2Proof.Machine

section
variable {self : TestId} {s t : State}

/-! ### The positions of each body leave `cur` alone -/

theorem waitTick_cur {go : State → State} (hgo : (go (consumeTick s)).seq.cur = s.seq.cur) :
    (waitTick go s).seq.cur = s.seq.cur := by
  unfold waitTick; split_ifs
  · exact hgo
  · rfl

theorem soutNext_cur (s : State) : (soutNext s).seq.cur = s.seq.cur := by
  unfold soutNext; split_ifs <;> rfl

theorem soutBus_cur (h : s.seq.pos.owner = some .soutBus) : (soutBusStep s).seq.cur = s.seq.cur := by
  cases hp : s.seq.pos <;> simp [SeqPos.owner, hp] at h <;> simp only [soutBusStep, hp]
  case soutSet => rfl
  case soutWait => exact waitTick_cur (soutNext_cur _)

theorem extBus_cur (h : s.seq.pos.owner = some .extBus) : (extBusStep s).seq.cur = s.seq.cur := by
  cases hp : s.seq.pos <;> simp [SeqPos.owner, hp] at h <;> simp only [extBusStep, hp]
  case ebDrive => rfl
  case ebWait => exact waitTick_cur rfl

theorem plisAgain_cur {count : Nat} {again : SeqPos} {done : State → State} (hdone : (done t).seq.cur = t.seq.cur) :
    (plisAgain count again done t).seq.cur = t.seq.cur := by
  unfold plisAgain; split_ifs
  · rfl
  · exact hdone

theorem plisRepetitionDone_cur (s : State) : (plisRepetitionDone s).seq.cur = s.seq.cur := by
  unfold plisRepetitionDone; split_ifs <;> rfl

theorem plis_cur (h : s.seq.pos.owner = some .plisRegisters) : (plisStep s).seq.cur = s.seq.cur := by
  have hcheck (reg want bit) : (plisCheck reg want bit s).seq.cur = s.seq.cur := by rw [plisCheck_seq]
  cases hp : s.seq.pos <;> simp [SeqPos.owner, hp] at h <;> simp only [plisStep, hp]
  case plisWait => exact waitTick_cur rfl
  case plisVersion => simp [plisLoop, hcheck]
  case plisExtWrite | plisInitWrite => rfl
  case plisExtRead | plisInitRead => exact (plisAgain_cur rfl).trans (hcheck _ _ _)
  case plisAliasWrite => exact plisAgain_cur rfl
  case plisAliasRead => exact (plisAgain_cur (plisRepetitionDone_cur _)).trans (hcheck _ _ _)

theorem dataBus_cur (h : s.seq.pos.owner = some .dataBus) : (dataBusStep s).seq.cur = s.seq.cur := by
  cases hp : s.seq.pos <;> simp [SeqPos.owner, hp] at h <;> simp only [dataBusStep, hp]
  case dbWdt => unfold dbNext; split_ifs <;> rfl
  case dbReadBack => simp [dbCheckWritten]
  case dbReadPaired => simp [dbCheckPaired]
  all_goals rfl

theorem ramAgain_cur {again : SeqPos} {done : State → State} (hdone : (done t).seq.cur = t.seq.cur) :
    (ramAgain again done t).seq.cur = t.seq.cur := by
  unfold ramAgain; split_ifs
  · rfl
  · exact hdone

theorem ramTickAt_cur (n : Nat) (s : State) : (ramTickAt n s).seq.cur = s.seq.cur := by
  unfold ramTickAt; split_ifs <;> rfl

theorem twoRam_cur (h : s.seq.pos.owner = some .twoRam) : (twoRamStep s).seq.cur = s.seq.cur := by
  have hcheck (want bit) : (ramCheck want bit s).seq.cur = s.seq.cur := by rw [ramCheck_seq]
  cases hp : s.seq.pos <;> simp [SeqPos.owner, hp] at h <;> simp only [twoRamStep, hp]
  case trWait => exact waitTick_cur rfl
  case trImmWrite | trImmWdt => rfl
  case trImmRead => exact (ramAgain_cur rfl).trans (hcheck _ _)
  case trDelWrite => exact ramAgain_cur rfl
  case trDelRead => exact (ramAgain_cur rfl).trans (by simp [stepG, hcheck])
  case trDelWdt => exact ramTickAt_cur _ _

theorem framVerifyBlock_cur (b : Nat) (s : State) : (framVerifyBlock b s).seq.cur = s.seq.cur := by
  unfold framVerifyBlock; split <;> rfl

theorem whenDone_cur {go : State → State} (hgo : (go s).seq.cur = s.seq.cur) : (whenDone go s).seq.cur = s.seq.cur := by
  unfold whenDone; split_ifs
  · exact hgo
  · rfl

theorem framIdentified_cur (s : State) : (framIdentified s).seq.cur = s.seq.cur := by
  unfold framIdentified; split_ifs <;> rfl

theorem framErased_cur (s : State) : (framErased s).seq.cur = s.seq.cur := by
  unfold framErased; split_ifs <;> rfl

theorem framWritten_cur (s : State) : (framWritten s).seq.cur = s.seq.cur := by
  unfold framWritten; split_ifs <;> rfl

theorem framBatchDone_cur (s : State) : (framBatchDone s).seq.cur = s.seq.cur := by
  unfold framBatchDone; split_ifs
  · rfl
  · exact framVerifyBlock_cur 0 s

theorem framVerified_cur (s : State) : (framVerified s).seq.cur = s.seq.cur := by
  unfold framVerified; split_ifs
  · rfl
  · exact framVerifyBlock_cur _ s

theorem fram_cur (h : s.seq.pos.owner = some .fram) : (framStep s).seq.cur = s.seq.cur := by
  cases hp : s.seq.pos <;> simp [SeqPos.owner, hp] at h <;> simp only [framStep, hp]
  case frEnable | frDisable => rfl
  case frIdentify | frErase | frRead | frBatchReset | frVerify => simp [stepG]
  case frProgram => simp [framProgram, stepG]
  case frIdentifyDone => exact whenDone_cur (framIdentified_cur s)
  case frEraseDone | frProgramDone | frReadDone | frVerifyDone => exact whenDone_cur rfl
  case frBatchResetDone => exact whenDone_cur (framBatchDone_cur s)
  case frEraseWdt => exact framErased_cur _
  case frWriteWdt => exact framWritten_cur _
  case frVerifyWdt => exact framVerified_cur _

/-! ### Every step -/

theorem bodyEntry_cur (self : TestId) (s : State) : (bodyEntry self s).seq.cur = s.seq.cur := by
  cases self
  case twoRam => exact ramTickAt_cur 0 _
  all_goals rfl

/-- A step of any body, in any state, leaves `cur` alone but at the return, which assigns it by the table of R150. -/
theorem bodyStep_cur (self : TestId) (s : State) :
    (bodyStep self s).seq.cur = s.seq.cur ∨
    ∃ o, s.seq.pos = .ret o ∧ (bodyStep self s).seq.cur = (transition self o).code := by
  by_cases hown : s.seq.pos.owner = some self
  · left
    cases self
    case error => cases hp : s.seq.pos <;> simp [SeqPos.owner, hp] at hown
    case soutBus => exact soutBus_cur hown
    case plisRegisters => exact plis_cur hown
    case dataBus => exact dataBus_cur hown
    case fram => exact fram_cur hown
    case twoRam => exact twoRam_cur hown
    case extBus => exact extBus_cur hown
  · rw [bodyStep_foreign hown, sharedStep]
    split
    case h_1 => exact .inl rfl
    case h_2 =>
      refine .inl (waitTick_cur ?_)
      split_ifs <;> rfl
    case h_3 o hp => exact .inr ⟨o, hp, rfl⟩
    case h_4 => exact .inl (bodyEntry_cur self _)

/-- `cur` is written by the return of a dispatch and by the reset line, and by nothing else (R28). -/
theorem agentStep_cur {a : Agent} (h : agentStep a s = .next t) :
    t.seq.cur = s.seq.cur ∨ a = .resetLine ∧ t.seq.cur = TestId.soutBus.code ∨
    a = .core ∧ s.fce.phase = .idle ∧
      ∃ self o, s.seq.cur = self.code ∧ s.seq.pos = .ret o ∧ t.seq.cur = (transition self o).code := by
  cases a with
  | core =>
    obtain ⟨-, hrow⟩ | ⟨hidle, self, hcur, rfl⟩ := core_cases h
    · obtain ⟨e, f, dev, draws, rfl⟩ := hrow.fceOnly
      exact .inl rfl
    · obtain hsame | ⟨o, hp, hret⟩ := bodyStep_cur self s
      · exact .inl hsame
      · exact .inr (.inr ⟨rfl, hidle, self, o, hcur, hp, hret⟩)
  | bench => exact .inl (congrArg Seq.cur (bench_frame h).1)
  | tick => cases h; exact .inl rfl
  | resetLine => cases h; exact .inr (.inl ⟨rfl, rfl⟩)

/-- No entry of the table of R150 is `Error`. -/
theorem transition_ne_error (self : TestId) (o : TestOutcome) : transition self o ≠ .error := by
  cases self <;> cases o <;> simp [transition]

theorem code_ne_reserved (self : TestId) : self.code ≠ 7 := by
  cases self <;> decide

/-- Code 0 is `Error`'s alone. -/
theorem code_ne_zero (h : self ≠ .error) : self.code ≠ 0 := fun hzero => h (code_injective hzero)

/-- A step that writes `cur` writes the code of a test other than `Error`. -/
theorem step_cur (h : step s = .next t) : t.seq.cur = s.seq.cur ∨ ∃ x, x ≠ .error ∧ t.seq.cur = TestId.code x := by
  obtain hsame | ⟨-, hreset⟩ | ⟨-, -, self, o, -, -, hret⟩ := agentStep_cur h
  · exact .inl (by simpa using hsame)
  · exact .inr ⟨.soutBus, by simp, hreset⟩
  · exact .inr ⟨_, transition_ne_error self o, hret⟩

end

/-! ### The obligation -/

/-- Settles O37: a step keeps `cur` or writes the code of a test other than `Error`, in every state. -/
theorem reservedTestIdFaults : Obligations.ReservedTestIdFaults := by
  unfold Obligations.ReservedTestIdFaults
  refine ⟨rfl, fun _ => rfl, code_ne_reserved, rfl, fun s t hstep hcur => ?_, rfl, fun s t _ hstep hcur => ?_⟩ <;>
    obtain hsame | ⟨x, hx, hwritten⟩ := step_cur hstep
  · exact hsame ▸ hcur
  · exact hwritten ▸ code_ne_reserved x
  · exact hsame ▸ hcur
  · exact hwritten ▸ code_ne_zero hx

end Sys2Proof.Machine
end

section
/-! PROOFS. What a `Start` makes of FCE's registers: the rows of R121 that start an operation, and every row as one case
distinction. -/

namespace Sys2Proof.Machine

/-- What a `Start` makes of the registers `g` its latches leave: it ends at once, enters the reset sequence, or goes to the
first phase of its operation with the checks of that operation passed. -/
inductive AcceptedAs (c : Params) (g : Fce) : Fce → Prop where
  | ended (code : ResultCode) : AcceptedAs c g (g.ended code)
  | resets : AcceptedAs c g (g.resetting 1 .ok)
  | runs (p : Phase) (hok : (g.goTo p).phaseOk c) : AcceptedAs c g (g.goTo p)

section
variable {c : Cfg} {o : Operands} {f : Fce}

theorem acceptance_erases (hblk : o.blk.toNat < c.numBlocks) (hid : f.idValid = true) :
    acceptance c.toParams 0x02 o f = (f.latched c.toParams 0x02 o).goTo .er1 := by
  simp [acceptance, Nat.not_le.mpr hblk, hid, Fce.goTo]

theorem acceptance_programs (haddr : o.addr < c.flashSize) (hid : f.idValid = true) :
    acceptance c.toParams 0x03 o f = (f.latched c.toParams 0x03 o).goTo .pg1 := by
  simp [acceptance, Nat.not_le.mpr haddr, hid, Fce.goTo]

theorem acceptance_buffer (hlen : o.len.toNat ≤ c.bufMax) (hrange : o.addr + o.len.toNat ≤ c.flashSize)
    (hid : f.idValid = true) :
    acceptance c.toParams 0x04 o f =
      if o.len = 0 then (f.latched c.toParams 0x04 o).resetting 1 .ok else (f.latched c.toParams 0x04 o).goTo .pg1 := by
  simp [acceptance, Nat.not_lt.mpr hlen, Nat.not_lt.mpr hrange, hid, Fce.goTo]

theorem acceptance_reads (haddr : o.addr < c.flashSize) :
    acceptance c.toParams 0x05 o f = (f.latched c.toParams 0x05 o).goTo .rd := by
  simp [acceptance, Nat.not_le.mpr haddr, Fce.goTo]

theorem eraseBlock_acceptedAs :
    AcceptedAs c.toParams (f.latched c.toParams 0x02 o) (acceptance c.toParams 0x02 o f) := by
  obtain hblk | hblk := Nat.lt_or_ge o.blk.toNat c.numBlocks
  · cases hid : f.idValid
    · exact acceptance_notIdentified hid (.inl ⟨rfl, hblk⟩) ▸ .ended _
    · exact acceptance_erases hblk hid ▸ .runs .er1 ⟨rfl, hblk, hid⟩
  · exact acceptance_invalidBlock hblk ▸ .ended _

theorem programByte_acceptedAs :
    AcceptedAs c.toParams (f.latched c.toParams 0x03 o) (acceptance c.toParams 0x03 o f) := by
  obtain haddr | haddr := Nat.lt_or_ge o.addr c.flashSize
  · cases hid : f.idValid
    · exact acceptance_notIdentified hid (.inr (.inl ⟨rfl, haddr⟩)) ▸ .ended _
    · exact acceptance_programs haddr hid ▸
        .runs .pg1 ⟨hid, .inl ⟨rfl, rfl, (latched_addr c 0x03 f haddr).symm ▸ haddr⟩⟩
  · exact acceptance_invalidAddress (.inl rfl) haddr ▸ .ended _

theorem programBuffer_acceptedAs :
    AcceptedAs c.toParams (f.latched c.toParams 0x04 o) (acceptance c.toParams 0x04 o f) := by
  by_cases hrange : c.bufMax < o.len.toNat ∨ c.flashSize < o.addr + o.len.toNat
  · exact acceptance_invalidRange hrange ▸ .ended _
  obtain ⟨hlen, hend⟩ : o.len.toNat ≤ c.bufMax ∧ o.addr + o.len.toNat ≤ c.flashSize := by omega
  cases hid : f.idValid
  · exact acceptance_notIdentified hid (.inr (.inr ⟨rfl, hlen, hend⟩)) ▸ .ended _
  · rw [acceptance_buffer hlen hend hid]
    split_ifs with hempty
    · exact .resets
    · have hpos : 0 < o.len.toNat := Nat.pos_of_ne_zero fun h => hempty (BitVec.eq_of_toNat_eq h)
      have haddr := latched_addr c 0x04 f (by omega : o.addr < c.flashSize)
      exact .runs .pg1 ⟨hid, .inr ⟨rfl, hlen, by rwa [Fce.goTo, haddr], hpos⟩⟩

theorem read_acceptedAs : AcceptedAs c.toParams (f.latched c.toParams 0x05 o) (acceptance c.toParams 0x05 o f) := by
  obtain haddr | haddr := Nat.lt_or_ge o.addr c.flashSize
  · exact acceptance_reads haddr ▸ .runs .rd ⟨rfl, (latched_addr c 0x05 f haddr).symm ▸ haddr⟩
  · exact acceptance_invalidAddress (.inr rfl) haddr ▸ .ended _

/-- Every row of R121. -/
theorem acceptance_acceptedAs (c : Cfg) (op : Byte) (o : Operands) (f : Fce) :
    AcceptedAs c.toParams (f.latched c.toParams op o) (acceptance c.toParams op o f) := by
  obtain ⟨rfl, -⟩ | ⟨rfl, -⟩ | ⟨rfl, -⟩ | ⟨rfl, -⟩ | ⟨rfl, -⟩ | ⟨rfl, -⟩ | ⟨hop, -⟩ := op_cases op o
  · exact .runs .as1 rfl
  · exact eraseBlock_acceptedAs
  · exact programByte_acceptedAs
  · exact programBuffer_acceptedAs
  · exact read_acceptedAs
  · exact .resets
  · exact reserved_acceptance _ _ _ _ hop ▸ .ended _

/-- A request presented to an idle FCE, whatever its opcode. -/
theorem request_acceptedAs {i : Instr} {s : State} (hi : i.isRequest = true) (hidle : s.fce.phase = .idle) :
    ∃ op o g, exec i s = .next { s with fce := g } ∧
      AcceptedAs s.cfg.toParams (s.fce.latched s.cfg.toParams op o) g := by
  cases i <;> simp only [Instr.isRequest, Bool.false_eq_true] at hi
  case identify o => exact ⟨_, o, _, identify_idle o s hidle, acceptance_acceptedAs _ _ _ _⟩
  case eraseBlock o => exact ⟨_, o, _, eraseBlock_idle o s hidle, acceptance_acceptedAs _ _ _ _⟩
  case programByte o => exact ⟨_, o, _, programByte_idle o s hidle, acceptance_acceptedAs _ _ _ _⟩
  case programBuffer o => exact ⟨_, o, _, programBuffer_idle o s hidle, acceptance_acceptedAs _ _ _ _⟩
  case read o => exact ⟨_, o, _, read_idle o s hidle, acceptance_acceptedAs _ _ _ _⟩
  case reset o => exact ⟨_, o, _, reset_idle o s hidle, acceptance_acceptedAs _ _ _ _⟩
  case reservedRequest op o => exact ⟨op, o, _, reserved_idle o s hidle op, .ended _⟩

variable {op : Byte} {g g' : Fce}

theorem AcceptedAs.phaseOk {c : Params} (h : AcceptedAs c g g') : g'.phaseOk c := by
  cases h with
  | ended code => trivial
  | resets => exact .inl rfl
  | runs p hok => exact hok

/-- A request is accepted with `done` 0 or has ended. -/
theorem AcceptedAs.done {c : Params} (h : AcceptedAs c g g') (hdone : g.done = false) :
    g'.busy = true → g'.done = false := by
  cases h with
  | ended code => nofun
  | resets => exact fun _ => hdone
  | runs p hok => exact fun _ => hdone

theorem AcceptedAs.widthsOk {c : Params} (h : AcceptedAs c g g') (hwidths : g.widthsOk c) : g'.widthsOk c := by
  cases h <;> exact hwidths

/-- Of the registers the latches leave, a `Start` writes `phase`, `result`, `done`, `rs_left` and `res`. -/
theorem AcceptedAs.frame {c : Params} (h : AcceptedAs c g g') :
    g' = { g with phase := g'.phase, result := g'.result, done := g'.done, rsLeft := g'.rsLeft, res := g'.res } := by
  cases h <;> rfl

end

end Sys2Proof.Machine
end

section
/-! PROOFS. FCE's invariant: what every row of the phase table keeps of it, and with it every turn of every agent
(R123, R124, R135, R136). -/

namespace Sys2Proof.Machine

/-- FCE's invariant, as one of its registers. -/
def Fce.inv (c : Params) (f : Fce) : Prop := f.phaseOk c ∧ (f.busy = true → f.done = false) ∧ f.widthsOk c

theorem fceInv_iff (s : State) : FceInv s ↔ s.fce.inv s.cfg.toParams := Iff.rfl

theorem pollBound_pos (c : Cfg) : 0 < c.pollBound := by
  obtain ⟨-, -, ⟨-, -, -, hpoll, -⟩, -⟩ := cfgOk c
  exact hpoll

theorem dq3Bound_pos (c : Cfg) : 0 < c.dq3Bound := by
  obtain ⟨-, -, ⟨-, -, -, -, hdq3, -⟩, -⟩ := cfgOk c
  exact hdq3

section
variable {c : Cfg} {f : Fce}

/-! ### The exits of completion detection (R124) -/

/-- The element after one that was programmed (R131). -/
theorem programming_next {c : Params} (hprogramming : f.programming c) (hop : f.op = 0x04)
    (hnext : f.idx.toNat + 1 < f.len.toNat) : Fce.programming c { f with idx := f.idx + 1, phase := .pg1 } := by
  obtain ⟨hid, ⟨hbyte, -⟩ | ⟨-, hlen, hrange, -⟩⟩ := hprogramming
  · exact absurd (hbyte.symm.trans hop) (by decide)
  · have hidx : (f.idx + 1).toNat = f.idx.toNat + 1 := by
      have := f.len.isLt
      rw [BitVec.toNat_add]
      simp
      omega
    exact ⟨hid, .inr ⟨hop, hlen, hrange, by rwa [hidx]⟩⟩

/-- An erase has one exit for each end of its completion detection (R129). -/
theorem pollExit_erase (hop : f.op = 0x02) (r : PollResult) : pollExit f r = f.resetting 1 (eraseResult r) := by
  cases r <;> simp [pollExit, hop, eraseResult]

/-- A program that succeeds, of one byte (R130). -/
theorem pollExit_byte_success (hop : f.op = 0x03) : pollExit f .success = f.ended .ok := by
  simp [pollExit, hop]

/-- A program that does not succeed, of one byte (R130). -/
theorem pollExit_byte_fails (hop : f.op = 0x03) {r : PollResult} (hr : r ≠ .success) :
    pollExit f r = f.resetting 1 (programResult r) := by
  cases r <;> simp_all [pollExit, programResult]

/-- A program that succeeds, of an element of a buffer (R131). -/
theorem pollExit_element_success (hop : f.op = 0x04) :
    pollExit f .success =
      if f.idx.toNat + 1 < f.len.toNat then { f with idx := f.idx + 1, phase := .pg1 }
      else Fce.resetting 1 .ok { f with idx := f.idx + 1 } := by
  simp [pollExit, hop]

/-- A program that does not succeed, of an element of a buffer (R131). -/
theorem pollExit_element_fails (hop : f.op = 0x04) {r : PollResult} (hr : r ≠ .success) :
    pollExit f r = Fce.resetting 2 (programResult r) { f with failIdx := f.idx } := by
  cases r <;> simp_all [pollExit, programResult]

/-- Completion detection in `PL1` or `PL2` is of an erase or of a program. -/
theorem polling_cases {c : Params} (h : f.polling c) :
    f.op = 0x02 ∨ f.op = 0x03 ∨ f.op = 0x04 ∧ f.programming c := by
  obtain ⟨⟨hop, -⟩, -⟩ | ⟨hprogramming, -⟩ := h
  · exact .inl hop
  · have ⟨_, hop⟩ := hprogramming
    exact .inr (hop.imp And.left fun h => ⟨h.1, hprogramming⟩)

theorem pollExit_phaseOk {c : Params} (h : f.polling c) (r : PollResult) : (pollExit f r).phaseOk c := by
  by_cases hr : r = .success
  · subst hr
    obtain hop | hop | ⟨hop, hprogramming⟩ := polling_cases h
    · exact pollExit_erase hop _ ▸ .inl rfl
    · exact pollExit_byte_success hop ▸ trivial
    · rw [pollExit_element_success hop]
      split_ifs with hnext
      · exact programming_next hprogramming hop hnext
      · exact .inl rfl
  · obtain hop | hop | ⟨hop, -⟩ := polling_cases h
    · exact pollExit_erase hop _ ▸ .inl rfl
    · exact pollExit_byte_fails hop hr ▸ .inl rfl
    · exact pollExit_element_fails hop hr ▸ .inr rfl

/-- An exit leaves the registers of parametric width alone, and `done` where the operation goes on. -/
theorem pollExit_frame (f : Fce) (r : PollResult) :
    (pollExit f r).addr = f.addr ∧ (pollExit f r).paddr = f.paddr ∧ (pollExit f r).pcnt = f.pcnt ∧
    ((pollExit f r).phase ≠ .idle → (pollExit f r).done = f.done) := by
  cases r <;> simp only [pollExit] <;> split_ifs <;> simp [Fce.resetting, Fce.ended]

/-! ### The rows of the phase table (R123) -/

/-- What R121 to R124 make of FCE's registers in each phase goes over from each row to its next phase, for every byte a load
may be answered. -/
theorem rowNext_phaseOk (h : f.phaseOk c.toParams) (d : Byte) : (rowNext c.toParams f d).phaseOk c.toParams := by
  cases hp : f.phase <;> simp only [Fce.phaseOk, hp] at h
  case idle => simp only [rowNext, Fce.phaseOk, hp]
  case as1 | as2 | as3 | idr1 | er1 | er2 | er3 | er4 | er5 | pg1 | pg2 | pg3 | rs1 | rs2 =>
    simp only [rowNext, hp]; exact h
  case idr2 => simp only [rowNext, hp]; split_ifs <;> exact .inl rfl
  case er6 => simp only [rowNext, hp]; exact ⟨h, rfl, rfl, dq3Bound_pos c⟩
  case dq3 =>
    obtain ⟨herasing, hpaddr, hexp, hpcnt⟩ := h
    rw [rowNext_dq3 _ _ hp]
    split_ifs with hseen hbound
    · exact ⟨.inl ⟨herasing, hpaddr, hexp⟩, pollBound_pos c⟩
    · exact .inl rfl
    · simp only [Fce.phaseOk, hp]; exact ⟨herasing, hpaddr, hexp, by omega⟩
  case pg4 => simp only [rowNext, hp]; exact ⟨.inr ⟨h, rfl⟩, pollBound_pos c⟩
  case pl1 =>
    obtain ⟨hpolling, hpcnt⟩ := h
    rw [rowNext_pl1 _ _ hp]
    split_ifs with hdone hexceeded hbound
    · exact pollExit_phaseOk (by exact hpolling) _
    · exact hpolling
    · exact pollExit_phaseOk (by exact hpolling) _
    · simp only [Fce.phaseOk, hp]; exact ⟨hpolling, by omega⟩
  case pl2 =>
    rw [rowNext_pl2 _ _ hp]
    split_ifs <;> exact pollExit_phaseOk (by exact h) _
  case rs3 =>
    simp only [rowNext, hp]
    split_ifs with hleft
    · exact .inl (by obtain h | h := h <;> simp_all)
    · trivial
  case rd => simp only [rowNext, hp]; trivial

/-- `done` is set only where the operation ends. -/
theorem rowNext_done (hdone : f.done = false) (c : Params) (d : Byte) :
    (rowNext c f d).busy = true → (rowNext c f d).done = false := by
  have hexit (g : Fce) (hg : g.done = false) (r : PollResult) : (pollExit g r).busy = true → (pollExit g r).done = false :=
    fun hbusy => ((pollExit_frame g r).2.2.2 ((busy_eq _).mp hbusy)).trans hg
  cases hp : f.phase
  case idr2 => simp only [rowNext, hp]; split_ifs <;> exact fun _ => hdone
  case dq3 => rw [rowNext_dq3 _ _ hp]; split_ifs <;> exact fun _ => hdone
  case pl1 =>
    rw [rowNext_pl1 _ _ hp]
    split_ifs
    · exact hexit _ (by exact hdone) _
    · exact fun _ => hdone
    · exact hexit _ (by exact hdone) _
    · exact fun _ => hdone
  case pl2 => rw [rowNext_pl2 _ _ hp]; split_ifs <;> exact hexit _ (by exact hdone) _
  case rs3 =>
    simp only [rowNext, hp]
    split_ifs
    · exact fun _ => hdone
    · nofun
  case rd => simp only [rowNext, hp]; nofun
  all_goals simp only [rowNext, hp]; exact fun _ => hdone

/-- The addresses and the count of loads stay within their registers (R136). -/
theorem rowNext_widthsOk (h : f.phaseOk c.toParams) (hwidths : f.widthsOk c.toParams) (d : Byte) :
    (rowNext c.toParams f d).widthsOk c.toParams := by
  have ⟨haddr, hpaddr, _⟩ := hwidths
  have hexit (g : Fce) (hg : g.widthsOk c.toParams) (r : PollResult) : (pollExit g r).widthsOk c.toParams := by
    obtain ⟨haddr, hpaddr, hpcnt, -⟩ := pollExit_frame g r
    exact ⟨haddr ▸ hg.1, hpaddr ▸ hg.2.1, hpcnt ▸ hg.2.2⟩
  cases hp : f.phase <;> simp only [Fce.phaseOk, hp] at h
  case idr2 => simp only [rowNext, hp]; split_ifs <;> exact hwidths
  case er6 => simp only [rowNext, hp]; exact ⟨haddr, window_fits c (erasing_lt h), Nat.zero_le _⟩
  case dq3 =>
    obtain ⟨-, -, -, hpcnt⟩ := h
    have hcounted : f.pcnt + 1 ≤ max c.pollBound c.dq3Bound := by omega
    rw [rowNext_dq3 _ _ hp]
    split_ifs
    · exact ⟨haddr, hpaddr, Nat.zero_le _⟩
    all_goals exact ⟨haddr, hpaddr, hcounted⟩
  case pg4 => simp only [rowNext, hp]; exact ⟨haddr, window_fits c (programming_lt h), Nat.zero_le _⟩
  case pl1 =>
    obtain ⟨-, hpcnt⟩ := h
    have hcounted : f.pcnt + 1 ≤ max c.pollBound c.dq3Bound := by omega
    rw [rowNext_pl1 _ _ hp]
    split_ifs
    · exact hexit _ (by exact ⟨haddr, hpaddr, hcounted⟩) _
    · exact ⟨haddr, hpaddr, hcounted⟩
    · exact hexit _ (by exact ⟨haddr, hpaddr, hcounted⟩) _
    · exact ⟨haddr, hpaddr, hcounted⟩
  case pl2 => rw [rowNext_pl2 _ _ hp]; split_ifs <;> exact hexit _ (by exact hwidths) _
  case rs3 => simp only [rowNext, hp]; split_ifs <;> exact hwidths
  all_goals simp only [rowNext, hp]; exact hwidths

theorem rowNext_inv (h : f.inv c.toParams) (hbusy : f.phase ≠ .idle) (d : Byte) :
    (rowNext c.toParams f d).inv c.toParams := by
  obtain ⟨hphase, hdone, hwidths⟩ := h
  exact ⟨rowNext_phaseOk hphase d, rowNext_done (hdone ((busy_eq f).mpr hbusy)) _ d, rowNext_widthsOk hphase hwidths d⟩

theorem acceptance_inv (h : f.inv c.toParams) (op : Byte) (o : Operands) :
    (acceptance c.toParams op o f).inv c.toParams := by
  obtain ⟨-, -, -, hpaddr, hpcnt⟩ := h
  have haccepted := acceptance_acceptedAs c op o f
  exact ⟨haccepted.phaseOk, haccepted.done rfl, haccepted.widthsOk ⟨addrBits_lt _ _, hpaddr, hpcnt⟩⟩

end

/-! ### Every turn -/

section
variable {s t : State}

theorem IsCall.cfg (h : IsCall s t) : t.cfg = s.cfg := by
  obtain ⟨u, hcall, q, rfl⟩ := h
  cases hcall <;> simp

theorem core_keeps_fceInv (h : FceInv s) (hstep : agentStep .core s = .next t) : FceInv t := by
  by_cases hidle : s.fce.phase = .idle
  · obtain ⟨self, -, rfl⟩ := core_idle_next s t hidle hstep
    have hcall := bodyStep_isCall self s
    rw [fceInv_iff, hcall.cfg]
    obtain hsame | ⟨-, op, o, haccepted⟩ := hcall.fce
    · exact hsame ▸ h
    · exact haccepted ▸ acceptance_inv h op o
  · obtain ⟨e, u, -, hrow, ⟨f, dev, draws, rfl⟩, hfce⟩ := busy_runsItsRow h hidle
    cases hrow.symm.trans ((core_busy s hidle).symm.trans hstep)
    obtain rfl : f = _ := hfce
    exact rowNext_inv h hidle _

theorem bench_keeps_fceInv (h : FceInv s) (hstep : agentStep .bench s = .next t) : FceInv t := by
  obtain ⟨op, o, rest, -, g, rfl, hidle, hbusy⟩ | ⟨i, d, rest, -, -, rfl⟩ | ⟨rest, -, rfl⟩ | ⟨-, rfl⟩ :=
    bench_next s t hstep
  · by_cases hp : s.fce.phase = .idle
    · exact hidle hp ▸ acceptance_inv h op o
    · exact hbusy hp ▸ h
  all_goals exact h

theorem agentStep_keeps_fceInv {a : Agent} (h : FceInv s) (hstep : agentStep a s = .next t) : FceInv t := by
  cases a with
  | core => exact core_keeps_fceInv h hstep
  | bench => exact bench_keeps_fceInv h hstep
  | tick => cases hstep; exact h
  | resetLine => cases hstep; exact hwReset_fceInv s

/-! ### Stores and `id_valid` -/

/-- A body makes no bus cycle. -/
theorem IsCall.busTrace (h : IsCall s t) : t.busTrace = s.busTrace := by
  obtain ⟨u, hcall, q, rfl⟩ := h
  cases hcall <;> simp

theorem bench_busTrace (hstep : agentStep .bench s = .next t) : t.busTrace = s.busTrace := by
  obtain ⟨op, o, rest, -, g, rfl, -⟩ | ⟨i, d, rest, -, -, rfl⟩ | ⟨rest, -, rfl⟩ | ⟨-, rfl⟩ :=
    bench_next s t hstep <;> rfl

/-- Only a turn of the core while FCE is busy makes a bus cycle, and it makes the one of its row. -/
theorem agentStep_event {a : Agent} {e : BusEvent} (h : FceInv s) (hstep : agentStep a s = .next t)
    (htrace : t.busTrace = s.busTrace ++ [e]) :
    rowEvent s.cfg.toParams s.fce (rowAnswer s) = some e := by
  have hnone (hsame : t.busTrace = s.busTrace) : False := by simp [hsame] at htrace
  cases a with
  | core =>
    by_cases hidle : s.fce.phase = .idle
    · obtain ⟨self, -, rfl⟩ := core_idle_next s t hidle hstep
      exact (hnone (bodyStep_isCall self s).busTrace).elim
    · obtain ⟨e', u, hevent, hrow, ⟨f, dev, draws, rfl⟩, -⟩ := busy_runsItsRow h hidle
      cases hrow.symm.trans ((core_busy s hidle).symm.trans hstep)
      obtain rfl : e' = e := by simpa using htrace
      exact hevent
  | bench => exact (hnone (bench_busTrace hstep)).elim
  | tick => cases hstep; exact (hnone rfl).elim
  | resetLine => cases hstep; exact (hnone (hwReset_busTrace s)).elim

/-- A store of an erase or of a program is made with `id_valid` 1; the others are those of the autoselect and reset
sequences. -/
theorem rowEvent_store {c : Params} {f : Fce} {x : Byte} {a : Nat} {d : Byte} (h : f.phaseOk c)
    (hevent : rowEvent c f x = some (.w a d)) :
    f.idValid = true ∨
    (f.op = 0x01 ∨ f.phase = .rs1 ∨ f.phase = .rs2 ∨ f.phase = .rs3) ∧
    ((a = 0xAAA ∧ (d = 0xAA ∨ d = 0x90 ∨ d = 0xF0)) ∨ (a = 0x555 ∧ d = 0x55)) := by
  cases hp : f.phase <;> simp only [Fce.phaseOk, hp] at h <;>
    simp only [rowEvent, hp, reduceCtorEq, Option.some.injEq, BusEvent.w.injEq] at hevent
  case er1 | er2 | er3 | er4 | er5 | er6 =>
    obtain ⟨-, -, hid⟩ := h
    exact .inl hid
  case pg1 | pg2 | pg3 | pg4 => exact .inl h.1
  all_goals
    obtain ⟨rfl, rfl⟩ := hevent
    simp [h]

end

/-! ### The obligations -/

/-- Settles O31: by agent; the core's turn is a row of the phase table or a body's request, and both keep the invariant. -/
theorem stepKeepsFceInvariant : Obligations.StepKeepsFceInvariant := by
  unfold Obligations.StepKeepsFceInvariant
  intro s t hinv hstep
  exact agentStep_keeps_fceInv (afterTurn_fceInv hinv) hstep

/-- Settles O9: the request of an opcode is its row of R121 to an idle FCE, and nothing to a busy one. -/
theorem acceptanceTable : Obligations.AcceptanceTable := by
  unfold Obligations.AcceptanceTable
  intro op o s
  exact ⟨accept_idle op o s, request_busy _ s (decodeReq_isRequest op o)⟩

/-- Settles O10: a request writes its latches and how it was accepted, and nothing to a busy FCE. -/
theorem requestFrame : Obligations.RequestFrame := by
  unfold Obligations.RequestFrame
  intro i s t hi hstep
  by_cases hidle : s.fce.phase = .idle
  · obtain ⟨op, o, g, hexec, haccepted⟩ := request_acceptedAs hi hidle
    cases hexec.symm.trans hstep
    have hframe : g = { s.fce.latched s.cfg.toParams op o with
        phase := g.phase, result := g.result, done := g.done, rsLeft := g.rsLeft, res := g.res } := haccepted.frame
    rw [hframe]
    exact ⟨rfl, rfl, fun _ => rfl, fun _ => rfl⟩
  · cases (request_busy i s hi hidle).symm.trans hstep
    exact ⟨rfl, rfl, fun _ => rfl, fun _ => rfl⟩

/-- Settles O22: FCE's step from its invariant is the row of its phase. -/
theorem phaseTable : Obligations.PhaseTable := by
  unfold Obligations.PhaseTable
  intro s hinv hbusy
  obtain ⟨e, t, hevent, hstep, honly, hfce⟩ := busy_runsItsRow hinv hbusy
  exact ⟨_, e, t, rfl, hevent, hstep, honly, hfce⟩

/-- Settles O29: by the row that made the store; from the invariant an erase or a program runs with `id_valid` 1. -/
theorem noDestructiveCycleWithoutIdentity : Obligations.NoDestructiveCycleWithoutIdentity := by
  unfold Obligations.NoDestructiveCycleWithoutIdentity
  intro s t a d hinv hstep htrace
  have hevent := agentStep_event (afterTurn_fceInv hinv) hstep (by simpa using htrace)
  obtain ⟨hphase, -⟩ := hinv
  exact rowEvent_store hphase (by simpa using hevent)

end Sys2Proof.Machine
end

section
/-! PROOFS. FCE run alone, whatever DEV answers: what it reaches from given registers, row by row; the store sequences and the
two spins (R91 to R95, R126, R127). -/

namespace Sys2Proof.Machine

theorem FceOnly.cfg {s t : State} {events : List BusEvent} (h : FceOnly s events t) : t.cfg = s.cfg := by
  obtain ⟨f, dev, draws, rfl⟩ := h
  rfl

/-- FCE's row of the phase table needs of its invariant only what holds of the registers in its phase. -/
theorem phaseOk_runsItsRow {s : State} (hphase : s.fce.phaseOk s.cfg.toParams) (hbusy : s.fce.phase ≠ .idle) :
    RunsItsRow s := by
  cases hp : s.fce.phase <;> simp only [Fce.phaseOk, hp] at hphase
  case idle => exact absurd hp hbusy
  case as1 | as2 | as3 => exact autoselect_runsItsRow (by simp only [phaseCommand, hp])
  case idr1 => exact idr1_runsItsRow hp
  case idr2 => exact idr2_runsItsRow hp
  case er1 | er2 | er3 | er4 | er5 | er6 => exact blockErase_runsItsRow (by rw [phaseCommand, hp]) hphase
  case dq3 =>
    obtain ⟨herasing, hpaddr, -⟩ := hphase
    exact dq3_runsItsRow hp (hpaddr ▸ erasing_lt herasing)
  case pg1 | pg2 | pg3 | pg4 => exact program_runsItsRow (by rw [phaseCommand, hp]) hphase
  case pl1 =>
    obtain ⟨hpolling, -⟩ := hphase
    exact pl1_runsItsRow hp hpolling
  case pl2 => exact pl2_runsItsRow hp hphase
  case rs1 | rs2 | rs3 => exact reset_runsItsRow (by simp only [phaseCommand, hp])
  case rd =>
    obtain ⟨-, hwindow⟩ := hphase
    exact rd_runsItsRow hp hwindow

/-- From every state with registers `f` that fit their phase, whatever DEV answers, FCE run alone comes to registers that
stand, with the bus cycles made, in `Q`; they fit their phase again. -/
def Reaches (c : Cfg) (f : Fce) (Q : List BusEvent → Fce → Prop) : Prop :=
  f.phaseOk c.toParams → ∀ s : State, s.cfg = c → s.fce = f →
    ∃ events t, fceRun events.length s = .next t ∧ FceOnly s events t ∧ t.fce.phaseOk c.toParams ∧ Q events t.fce

section
variable {c : Cfg} {f f' : Fce} {e : BusEvent} {Q R : List BusEvent → Fce → Prop}

/-! ### Rules -/

theorem Reaches.done (h : Q [] f) : Reaches c f Q := by
  rintro hok s rfl rfl
  exact ⟨[], s, rfl, ⟨s.fce, s.dev, s.draws, by simp⟩, hok, h⟩

theorem Reaches.mono (h : Reaches c f Q) (hQR : ∀ events g, Q events g → R events g) : Reaches c f R := by
  intro hok s hcfg hfce
  obtain ⟨events, t, hrun, honly, hok', hQ⟩ := h hok s hcfg hfce
  exact ⟨events, t, hrun, honly, hok', hQR _ _ hQ⟩

theorem Reaches.trans (h : Reaches c f Q)
    (hrest : ∀ events g, Q events g → Reaches c g fun events' => R (events ++ events')) : Reaches c f R := by
  intro hok s hcfg hfce
  obtain ⟨events, t, hrun, honly, hok', hQ⟩ := h hok s hcfg hfce
  obtain ⟨events', u, hrun', honly', hok'', hR⟩ := hrest _ _ hQ hok' t (honly.cfg.trans hcfg) rfl
  exact ⟨events ++ events', u, by rw [List.length_append, fceRun_add _ _ _ _ hrun, hrun'], honly.trans honly', hok'', hR⟩

/-- What holds of the registers in their phase may be used. -/
theorem Reaches.assume (h : f.phaseOk c.toParams → Reaches c f Q) : Reaches c f Q := fun hok => h hok hok

/-- One row of the phase table for every byte a load may be answered, then what follows. -/
theorem Reaches.row (h : ∀ d, ∃ e, rowEvent c.toParams f d = some e ∧
    Reaches c (rowNext c.toParams f d) fun events => Q (e :: events)) : Reaches c f Q := by
  rintro hok s rfl rfl
  obtain ⟨e, hevent, hrest⟩ := h (rowAnswer s)
  have hbusy : s.fce.phase ≠ .idle := fun hidle => by simp [rowEvent, hidle] at hevent
  obtain ⟨e', t, hevent', hstep, honly, hfce⟩ := phaseOk_runsItsRow hok hbusy
  obtain rfl : e' = e := Option.some.inj (hevent'.symm.trans hevent)
  obtain ⟨events, u, hrun, honly', hok', hQ⟩ := hrest (rowNext_phaseOk hok _) t honly.cfg hfce
  exact ⟨e' :: events, u, by rw [List.length_cons, fceRun, hstep]; exact hrun, honly.trans honly', hok', hQ⟩

/-- A store row, then what follows. -/
theorem Reaches.store (hevent : ∀ d, rowEvent c.toParams f d = some e) (hnext : ∀ d, rowNext c.toParams f d = f')
    (h : Reaches c f' fun events => Q (e :: events)) : Reaches c f Q :=
  .row fun d => ⟨e, hevent d, (hnext d).symm ▸ h⟩

/-- A store row that only goes on to phase `q`, then what follows. -/
theorem Reaches.storeTo {p : Phase} (q : Phase) (hevent : ∀ d, rowEvent c.toParams (f.goTo p) d = some e)
    (hnext : ∀ d, rowNext c.toParams (f.goTo p) d = f.goTo q) (h : Reaches c (f.goTo q) fun events => Q (e :: events)) :
    Reaches c (f.goTo p) Q := .store hevent hnext h

/-! ### Store sequences -/

/-- `SEQ_AUTOSELECT` (R92). -/
theorem Reaches.autoselect (h : Reaches c (f.goTo .idr1) fun events => Q (wireEvents .seqAutoselect ++ events)) :
    Reaches c (f.goTo .as1) Q :=
  .storeTo .as2 (fun _ => rfl) (fun _ => rfl) <| .storeTo .as3 (fun _ => rfl) (fun _ => rfl) <|
  .storeTo .idr1 (fun _ => rfl) (fun _ => rfl) h

/-- `SEQ_BLOCK_ERASE` of the latched block (R95), the registers left for the spins. -/
theorem Reaches.blockErase {a : Nat} (ha : blockOffset c.toParams f.blk.toNat = a)
    (h : Reaches c { f with phase := .dq3, paddr := a, exp := 0xFF, pcnt := 0 } fun events =>
      Q (wireEvents (.seqBlockErase a) ++ events)) : Reaches c (f.goTo .er1) Q := by
  subst ha
  exact .storeTo .er2 (fun _ => rfl) (fun _ => rfl) <| .storeTo .er3 (fun _ => rfl) (fun _ => rfl) <|
    .storeTo .er4 (fun _ => rfl) (fun _ => rfl) <| .storeTo .er5 (fun _ => rfl) (fun _ => rfl) <|
    .storeTo .er6 (fun _ => rfl) (fun _ => rfl) <| .store (fun _ => rfl) (fun _ => rfl) h

/-- `SEQ_PROGRAM` of the element FCE is at (R94), the registers left for completion detection. -/
theorem Reaches.program {a : Nat} {v : Byte} (hcycle : f.programCycle = ⟨a, v⟩)
    (h : Reaches c { f with phase := .pl1, paddr := a, exp := v, pcnt := 0 } fun events =>
      Q (wireEvents (.seqProgram a v) ++ events)) : Reaches c (f.goTo .pg1) Q := by
  obtain ⟨rfl, rfl⟩ : a = f.programCycle.offset ∧ v = f.programCycle.byte := by simp [hcycle]
  exact .storeTo .pg2 (fun _ => rfl) (fun _ => rfl) <| .storeTo .pg3 (fun _ => rfl) (fun _ => rfl) <|
    .storeTo .pg4 (fun _ => rfl) (fun _ => rfl) <| .store (fun _ => rfl) (fun _ => rfl) h

/-- The registers after the last reset sequence: `code` is saved and published (R122, row RS3). -/
def Fce.published (code : ResultCode) (f : Fce) : Fce := Fce.ended code { f with rsLeft := 0, res := code }

/-- The last reset sequence, and the publishing of the code (R93, R122). -/
theorem Reaches.lastReset {code : ResultCode} (h : Q resetEvents (f.published code)) : Reaches c (f.resetting 1 code) Q := by
  have hlast (d : Byte) : rowNext c.toParams ((f.resetting 1 code).goTo .rs3) d = f.published code := by
    simp [rowNext, Fce.goTo, Fce.resetting, Fce.published, Fce.ended]
  exact .storeTo (f := f.resetting 1 code) .rs2 (fun _ => rfl) (fun _ => rfl) <|
    .storeTo .rs3 (fun _ => rfl) (fun _ => rfl) <| .store (fun _ => rfl) hlast <| .done h

/-- The two reset sequences of a buffer that failed (R131). -/
theorem Reaches.twoResets {code : ResultCode} (h : Q (resetEvents ++ resetEvents) (f.published code)) :
    Reaches c (f.resetting 2 code) Q := by
  have hfirst (d : Byte) : rowNext c.toParams ((f.resetting 2 code).goTo .rs3) d = f.resetting 1 code := by
    simp [rowNext, Fce.goTo, Fce.resetting]
  exact .storeTo (f := f.resetting 2 code) .rs2 (fun _ => rfl) (fun _ => rfl) <|
    .storeTo .rs3 (fun _ => rfl) (fun _ => rfl) <| .store (fun _ => rfl) hfirst <| .lastReset h

end

/-! ### The spins -/

/-- How the erase-started spin may end, `n` loads made before: in the loads and as the loop of R126 says. -/
def SpinEnds (c : Params) (f : Fce) (n : Nat) (events : List BusEvent) (g : Fce) : Prop :=
  ∃ answers s1, events = loadEvents f.paddr answers ∧
    (awaitStart c.dq3Bound n answers = some (true, answers.length) ∧ g = f.spinAt .pl1 s1 0 ∨
     awaitStart c.dq3Bound n answers = some (false, answers.length) ∧
      g = Fce.resetting 1 .timeout (f.spinAt .dq3 s1 c.dq3Bound))

/-- How completion detection may end, `n` first loads made before: in the loads and by the exit the loop of R127 says. -/
def DetectionEnds (c : Params) (f : Fce) (n : Nat) (events : List BusEvent) (g : Fce) : Prop :=
  ∃ answers r s1 s2 pcnt, events = loadEvents f.paddr answers ∧
    detect c.pollBound f.exp n answers = some (r, answers.length) ∧
    g = pollExit { f with s1 := s1, s2 := s2, pcnt := pcnt } r

section
variable {c : Cfg} {f : Fce}

/-- The erase-started spin runs as the loop of R126. -/
theorem eraseSpin_reaches (s1 : Byte) (n : Nat) : Reaches c (f.spinAt .dq3 s1 n) (SpinEnds c.toParams f n) := by
  refine .assume fun ⟨_, _, _, hbound⟩ => .row fun d => ⟨.r f.paddr d, rfl, ?_⟩
  have hbound : n < c.dq3Bound := hbound
  rw [rowNext_dq3 _ _ rfl]
  split_ifs with hseen hlast
  · exact .done ⟨[d], d, rfl, .inl ⟨if_pos hseen, rfl⟩⟩
  · have hlast : n + 1 = c.dq3Bound := hlast
    exact .done ⟨[d], d, rfl, .inr ⟨(if_neg hseen).trans (if_pos hlast), hlast ▸ rfl⟩⟩
  · have hgoes (answers : List Byte) : awaitStart c.dq3Bound n (d :: answers) =
        (awaitStart c.dq3Bound (n + 1) answers).map fun x => (x.1, x.2 + 1) := (if_neg hseen).trans (if_neg hlast)
    refine (eraseSpin_reaches d (n + 1)).mono fun events g ⟨answers, s1, hevents, hend⟩ =>
      ⟨d :: answers, s1, by rw [hevents]; rfl, ?_⟩
    simpa only [hgoes, Option.map_eq_some_iff, Prod.exists, Prod.mk.injEq, List.length_cons, Nat.add_right_cancel_iff,
      exists_eq_right_right, exists_eq_right] using hend
termination_by c.dq3Bound - n

/-- An exit goes on at its own phase, whatever the one it leaves. -/
theorem pollExit_goTo (f : Fce) (p : Phase) (r : PollResult) : pollExit (f.goTo p) r = pollExit f r := by
  cases r <;> rfl

/-- The single re-read (row PL2) ends completion detection. -/
theorem reread_reaches {d : Byte} {n : Nat} (hrunning : ¬ d.getLsbD 7 = f.exp.getLsbD 7) (hexceeded : d.getLsbD 5 = true) :
    Reaches c (f.spinAt .pl2 d (n + 1)) fun events => DetectionEnds c.toParams f n (.r f.paddr d :: events) := by
  refine .row fun d' => ⟨.r f.paddr d', rfl, ?_⟩
  have hdetect : detect c.pollBound f.exp n [d, d'] =
      some (if d'.getLsbD 7 = f.exp.getLsbD 7 then .success else .failure, 2) :=
    (if_neg hrunning).trans (if_pos hexceeded)
  have hends (r : PollResult) (hr : (if d'.getLsbD 7 = f.exp.getLsbD 7 then .success else .failure) = r) :
      Reaches c (pollExit { f.spinAt .pl2 d (n + 1) with s2 := d' } r) fun events =>
        DetectionEnds c.toParams f n (.r f.paddr d :: .r f.paddr d' :: events) :=
    .done ⟨[d, d'], r, d, d', n + 1, rfl, hr ▸ hdetect,
      pollExit_goTo { f with s1 := d, s2 := d', pcnt := n + 1 } .pl2 r⟩
  have hdone : statusDone f.exp d' = true ↔ d'.getLsbD 7 = f.exp.getLsbD 7 := beq_iff_eq
  rw [rowNext_pl2 _ _ rfl]
  split_ifs with hcompleted
  · exact hends _ (if_pos (hdone.mp hcompleted))
  · exact hends _ (if_neg (mt hdone.mpr hcompleted))

/-- Completion detection runs as the loop of R127. -/
theorem detection_reaches (s1 : Byte) (n : Nat) : Reaches c (f.spinAt .pl1 s1 n) (DetectionEnds c.toParams f n) := by
  refine .assume fun ⟨_, hbound⟩ => .row fun d => ⟨.r f.paddr d, rfl, ?_⟩
  have hbound : n < c.pollBound := hbound
  have hdone : statusDone f.exp d = true ↔ d.getLsbD 7 = f.exp.getLsbD 7 := beq_iff_eq
  have hends (r : PollResult) (hr : detect c.pollBound f.exp n [d] = some (r, 1)) :
      Reaches c (pollExit (f.spinAt .pl1 d (n + 1)) r) fun events =>
        DetectionEnds c.toParams f n (.r f.paddr d :: events) :=
    .done ⟨[d], r, d, f.s2, n + 1, rfl, hr, pollExit_goTo { f with s1 := d, pcnt := n + 1 } .pl1 r⟩
  rw [rowNext_pl1 _ _ rfl]
  split_ifs with hcompleted hexceeded hlast
  · exact hends .success (if_pos (hdone.mp hcompleted))
  · exact reread_reaches (mt hdone.mpr hcompleted) hexceeded
  · exact hends .timeout ((if_neg (mt hdone.mpr hcompleted)).trans ((if_neg hexceeded).trans (if_pos hlast)))
  · have hgoes (answers : List Byte) : detect c.pollBound f.exp n (d :: answers) =
        (detect c.pollBound f.exp (n + 1) answers).map fun x => (x.1, x.2 + 1) :=
      (if_neg (mt hdone.mpr hcompleted)).trans ((if_neg hexceeded).trans (if_neg hlast))
    refine (detection_reaches d (n + 1)).mono fun events g ⟨answers, r, s1, s2, pcnt, hevents, hdetect, hg⟩ =>
      ⟨d :: answers, r, s1, s2, pcnt, by rw [hevents]; rfl, by rw [hgoes, hdetect]; rfl, hg⟩
termination_by c.pollBound - n

/-- The erase-started spin reads the block's offset (R126). -/
theorem dq3_paddr {c : Params} (h : f.phaseOk c) (hp : f.phase = .dq3) : f.paddr = blockOffset c f.blk.toNat := by
  simp only [Fce.phaseOk, hp] at h
  exact h.2.1

theorem spinAt_self {p : Phase} {n : Nat} (hp : f.phase = p) (hn : f.pcnt = n) : f.spinAt p f.s1 n = f := by
  subst hp hn
  rfl

end

/-! ### The obligations -/

/-- Settles O24: by induction on the loads that the bound leaves. -/
theorem eraseStartedSpin : Obligations.EraseStartedSpin := by
  unfold Obligations.EraseStartedSpin
  intro s ⟨hphase, _⟩ hp hpcnt
  have hpaddr := dq3_paddr hphase hp
  have hspin := eraseSpin_reaches (c := s.cfg) (f := s.fce) s.fce.s1 0
  rw [spinAt_self hp hpcnt] at hspin
  obtain ⟨_, t, hrun, honly, -, answers, s1, rfl, hend⟩ := hspin hphase s rfl rfl
  rw [loadEvents, List.length_map] at hrun
  rw [hpaddr] at honly
  obtain ⟨hawait, hfce⟩ | ⟨hawait, hfce⟩ := hend
  · exact ⟨answers, true, t, hawait, hrun, honly, fun _ => by simp [hfce, Fce.spinAt], nofun⟩
  · exact ⟨answers, false, t, hawait, hrun, honly, nofun, fun _ => by simp [hfce, Fce.spinAt, Fce.resetting]⟩

/-- Settles O25: by induction on the first loads that the bound leaves, the re-read where bit 5 is seen. -/
theorem completionDetection : Obligations.CompletionDetection := by
  unfold Obligations.CompletionDetection
  intro s ⟨hphase, _⟩ hp hpcnt
  have hdetection := detection_reaches (c := s.cfg) (f := s.fce) s.fce.s1 0
  rw [spinAt_self hp hpcnt] at hdetection
  obtain ⟨_, t, hrun, honly, -, answers, r, s1, s2, pcnt, rfl, hdetect, hfce⟩ := hdetection hphase s rfl rfl
  rw [loadEvents, List.length_map] at hrun
  exact ⟨answers, r, t, s1, s2, pcnt, hdetect, hrun, honly, hfce⟩

end Sys2Proof.Machine
end

section
/-! PROOFS. The six operations run alone from their first phase, whatever DEV answers, and from their acceptance to their end
(R128 to R133). -/

namespace Sys2Proof.Machine

section
variable {c : Cfg} {f : Fce} {Q : List BusEvent → Fce → Prop}

/-- A request whose run reaches an idle FCE with `done` set completes there. -/
theorem Reaches.completes {i : Instr} {op : Byte} {o : Operands} {s : State}
    (haccepted : exec i s = .next { s with fce := acceptance s.cfg.toParams op o s.fce })
    (h : Reaches s.cfg (acceptance s.cfg.toParams op o s.fce) Q)
    (hends : ∀ events g, Q events g → g.phase = .idle ∧ g.done = true) :
    ∃ events u, Completes i s events u ∧ Q events u.fce := by
  obtain ⟨events, u, hrun, ⟨f, dev, draws, rfl⟩, -, hQ⟩ := 
    h (acceptance_acceptedAs _ _ _ _).phaseOk { s with fce := acceptance s.cfg.toParams op o s.fce } rfl rfl
  obtain ⟨hidle, hdone⟩ := hends _ _ hQ
  exact ⟨events, _, ⟨_, haccepted, hrun, ⟨f, dev, draws, rfl⟩, hidle, hdone⟩, hQ⟩

/-! ### `IDENTIFY` (R128) -/

/-- The registers after an `IDENTIFY` answered `m` and `d`. -/
def Fce.identified (c : Params) (m d : Byte) (f : Fce) : Fce :=
  let code := if m = c.manufacturer ∧ d = c.deviceCode then ResultCode.ok else .identityMismatch
  { f.ended code with
    idMfr := m, idDev := d, idValid := decide (m = c.manufacturer ∧ d = c.deviceCode), rsLeft := 0, res := code }

/-- The eight bus cycles of an `IDENTIFY` and its registers. -/
def IdentifyRun (c : Params) (f : Fce) (events : List BusEvent) (g : Fce) : Prop :=
  ∃ m d, events = wireEvents .seqAutoselect ++ [.r c.idMfrOffset m, .r c.idDevOffset d] ++ resetEvents ∧
    g = f.identified c m d

theorem identify_reaches : Reaches c (f.goTo .as1) (IdentifyRun c.toParams f) := by
  refine .autoselect <| .row fun m => ⟨_, rfl, .row fun d => ⟨_, rfl, ?_⟩⟩
  have hnext : rowNext c.toParams (rowNext c.toParams (f.goTo .idr1) m) d =
      if m = c.manufacturer ∧ d = c.deviceCode then
        Fce.resetting 1 .ok { f with idMfr := m, idDev := d, idValid := true }
      else Fce.resetting 1 .identityMismatch { f with idMfr := m, idDev := d, idValid := false } := rfl
  rw [hnext]
  split_ifs with hid <;> exact .lastReset ⟨m, d, rfl, by simp [Fce.identified, hid]; rfl⟩

/-! ### `ERASE_BLOCK` (R129) -/

/-- The bus cycles of an erase and its registers, by how its two spins ended. -/
def EraseRun (c : Params) (f : Fce) (events : List BusEvent) (g : Fce) : Prop :=
  ∃ spin poll code s1 s2 pcnt,
    let off := blockOffset c f.blk.toNat
    events = wireEvents (.seqBlockErase off) ++ loadEvents off (spin ++ poll) ++ resetEvents ∧
    (awaitStart c.dq3Bound 0 spin = some (false, spin.length) ∧ poll = [] ∧ code = .timeout ∨
      awaitStart c.dq3Bound 0 spin = some (true, spin.length) ∧
      ∃ r, detect c.pollBound 0xFF 0 poll = some (r, poll.length) ∧ code = eraseResult r) ∧
    g = { f.ended code with
      paddr := off, exp := 0xFF, s1 := s1, s2 := s2, pcnt := pcnt, rsLeft := 0, res := code }

theorem loadEvents_append (a : Nat) (xs ys : List Byte) :
    loadEvents a (xs ++ ys) = loadEvents a xs ++ loadEvents a ys := List.map_append

theorem erase_reaches (hop : f.op = 0x02) : Reaches c (f.goTo .er1) (EraseRun c.toParams f) := by
  refine .blockErase rfl ?_
  generalize hoff : blockOffset c.toParams f.blk.toNat = off
  refine (eraseSpin_reaches (f := { f with paddr := off, exp := 0xFF }) f.s1 0).trans ?_
  rintro _ _ ⟨spin, s1, rfl, ⟨hspin, rfl⟩ | ⟨hspin, rfl⟩⟩
  · refine (detection_reaches (f := { f with paddr := off, exp := 0xFF }) s1 0).trans ?_
    rintro _ _ ⟨poll, r, s1, s2, pcnt, rfl, hpoll, rfl⟩
    rw [pollExit_erase (by exact hop)]
    exact .lastReset ⟨spin, poll, _, s1, s2, pcnt, by simp [hoff, loadEvents_append], .inr ⟨hspin, r, hpoll, rfl⟩,
      hoff ▸ rfl⟩
  · exact .lastReset ⟨spin, [], .timeout, s1, f.s2, c.dq3Bound, by simp [hoff], .inl ⟨hspin, rfl, rfl⟩, hoff ▸ rfl⟩

/-! ### `PROGRAM_BYTE` and the elements of `PROGRAM_BUFFER` (R130, R131) -/

/-- The registers that completion detection of the element FCE is at leaves its exit. -/
def Fce.polled (f : Fce) (s1 s2 : Byte) (pcnt : Nat) : Fce :=
  { f with paddr := f.programCycle.offset, exp := f.programCycle.byte, s1 := s1, s2 := s2, pcnt := pcnt }

/-- The bus cycles of programming the element FCE is at, up to the exit of its completion detection. -/
def ProgramRun (c : Params) (f : Fce) (events : List BusEvent) (g : Fce) : Prop :=
  ∃ answers r s1 s2 pcnt,
    events = wireEvents (.seqProgram f.programCycle.offset f.programCycle.byte) ++
      loadEvents f.programCycle.offset answers ∧
    detect c.pollBound f.programCycle.byte 0 answers = some (r, answers.length) ∧ g = pollExit (f.polled s1 s2 pcnt) r

theorem program_reaches : Reaches c (f.goTo .pg1) (ProgramRun c.toParams f) := by
  refine .program rfl ?_
  refine (detection_reaches (f := { f with paddr := f.programCycle.offset, exp := f.programCycle.byte }) f.s1 0).mono ?_
  rintro _ _ ⟨answers, r, s1, s2, pcnt, rfl, hdetect, rfl⟩
  exact ⟨answers, r, s1, s2, pcnt, rfl, hdetect, rfl⟩

/-- The bus cycles of a `PROGRAM_BYTE` and its registers. -/
def ByteRun (c : Params) (f : Fce) (events : List BusEvent) (g : Fce) : Prop :=
  ∃ poll r s1 s2 pcnt, detect c.pollBound f.val 0 poll = some (r, poll.length) ∧
    events = wireEvents (.seqProgram f.addr f.val) ++ loadEvents f.addr poll ++
      (if r = .success then [] else resetEvents) ∧
    g = { f.ended (programResult r) with
      paddr := f.addr, exp := f.val, s1 := s1, s2 := s2, pcnt := pcnt
      rsLeft := if r = .success then f.rsLeft else 0, res := if r = .success then f.res else programResult r }

theorem byte_reaches (hop : f.op = 0x03) (hidx : f.idx = 0) : Reaches c (f.goTo .pg1) (ByteRun c.toParams f) := by
  have hcycle : f.programCycle = ⟨f.addr, f.val⟩ := by simp [Fce.programCycle, hop, hidx]
  refine program_reaches.trans ?_
  rintro _ _ ⟨poll, r, s1, s2, pcnt, rfl, hdetect, rfl⟩
  simp only [Fce.polled, hcycle] at hdetect ⊢
  by_cases hr : r = .success
  · subst hr
    rw [pollExit_byte_success (by exact hop)]
    exact .done ⟨poll, .success, s1, s2, pcnt, hdetect, rfl, rfl⟩
  · rw [pollExit_byte_fails (by exact hop) hr]
    exact .lastReset ⟨poll, r, s1, s2, pcnt, hdetect, by simp [hr], by simp [hr]; rfl⟩

/-! ### `PROGRAM_BUFFER` (R131) -/

/-- The elements from `i` on were tried, each with one list of status answers, and completion detection of each succeeded. -/
def ElementsSucceed (bound : Nat) (bytes : Nat → Byte) (i : Nat) (tried : List (List Byte)) : Prop :=
  ∀ j (h : j < tried.length), detect bound (bytes (i + j)) 0 tried[j] = some (.success, tried[j].length)

theorem ElementsSucceed.nil {bound : Nat} {bytes : Nat → Byte} {i : Nat} : ElementsSucceed bound bytes i [] := nofun

theorem ElementsSucceed.cons {bound : Nat} {bytes : Nat → Byte} {i : Nat} {answers : List Byte} {tried : List (List Byte)}
    (h : detect bound (bytes i) 0 answers = some (.success, answers.length))
    (hrest : ElementsSucceed bound bytes (i + 1) tried) : ElementsSucceed bound bytes i (answers :: tried)
  | 0, _ => h
  | j + 1, hj => by
    have := hrest j (Nat.lt_of_succ_lt_succ hj)
    rwa [Nat.add_right_comm] at this

/-- The registers after a `PROGRAM_BUFFER`; `x` holds those its spins left. -/
def Fce.bufferEnded (f : Fce) (code : ResultCode) (idx failIdx : BitVec 16) (x : Fce) : Fce :=
  { f.ended code with
    idx := idx, failIdx := failIdx, paddr := x.paddr, exp := x.exp, s1 := x.s1, s2 := x.s2, pcnt := x.pcnt
    rsLeft := 0, res := code }

/-- The bus cycles of a `PROGRAM_BUFFER` from element `idx` on, and its registers: every element succeeds, or the one after
those tried does not. -/
def BufferRun (c : Params) (f : Fce) (events : List BusEvent) (g : Fce) : Prop :=
  ∃ tried x, ElementsSucceed c.pollBound f.buf.read f.idx.toNat tried ∧
    (f.idx.toNat + tried.length = f.len.toNat ∧
      events = elementEvents f.addr f.buf.read f.idx.toNat tried ++ resetEvents ∧
      g = f.bufferEnded .ok f.len f.failIdx x ∨
     f.idx.toNat + tried.length < f.len.toNat ∧ ∃ answers r,
      detect c.pollBound (f.buf.read (f.idx.toNat + tried.length)) 0 answers = some (r, answers.length) ∧ r ≠ .success ∧
      events = elementEvents f.addr f.buf.read f.idx.toNat (tried ++ [answers]) ++ resetEvents ++ resetEvents ∧
      g = f.bufferEnded (programResult r) (BitVec.ofNat 16 (f.idx.toNat + tried.length))
        (BitVec.ofNat 16 (f.idx.toNat + tried.length)) x)

/-- `f` with the spins' registers of `x`. -/
def Fce.spun (f x : Fce) : Fce :=
  { f with paddr := x.paddr, exp := x.exp, s1 := x.s1, s2 := x.s2, pcnt := x.pcnt }

/-- The element register counts on without wrap. -/
theorem idx_next (hnext : f.idx.toNat < f.len.toNat) : (f.idx + 1).toNat = f.idx.toNat + 1 := by
  have := f.len.isLt
  rw [BitVec.toNat_add]
  simp
  omega

/-- What `PG4` stores of an element and where (R123). -/
theorem programCycle_element (hop : f.op = 0x04) :
    f.programCycle = ⟨f.addr + f.idx.toNat, f.buf.read f.idx.toNat⟩ := by simp [Fce.programCycle, hop]

/-- An element that succeeded, then the run of the ones after it. -/
theorem BufferRun.cons {c : Params} {x g : Fce} {events : List BusEvent} {answers : List Byte} (hop : f.op = 0x04)
    (hdetect : detect c.pollBound (f.buf.read f.idx.toNat) 0 answers = some (.success, answers.length))
    (hnext : f.idx.toNat < f.len.toNat) (h : BufferRun c { f.spun x with idx := f.idx + 1 } events g) :
    BufferRun c f (wireEvents (.seqProgram f.programCycle.offset f.programCycle.byte) ++
      loadEvents f.programCycle.offset answers ++ events) g := by
  rw [programCycle_element hop]
  obtain ⟨tried, y, hsucceed, hend⟩ := h
  have hcount : (f.idx + 1).toNat + tried.length = f.idx.toNat + (answers :: tried).length := by
    rw [idx_next hnext, List.length_cons]
    omega
  simp only [hcount] at hend
  rw [idx_next hnext] at hsucceed hend
  refine ⟨answers :: tried, y, .cons hdetect hsucceed, ?_⟩
  obtain ⟨hall, rfl, rfl⟩ | ⟨hless, answers', r, hfails, hr, rfl, rfl⟩ := hend
  · exact .inl ⟨hall, by simp [elementEvents, Fce.spun], rfl⟩
  · exact .inr ⟨hless, answers', r, hfails, hr, by simp [elementEvents, Fce.spun], rfl⟩

/-- From an element on a `PROGRAM_BUFFER` runs as R131 says. -/
theorem elements_reach {f : Fce} (hop : f.op = 0x04) (hlt : f.idx.toNat < f.len.toNat) :
    Reaches c (f.goTo .pg1) (BufferRun c.toParams f) := by
  have hcycle := programCycle_element hop
  have hidx := idx_next hlt
  refine program_reaches.trans ?_
  rintro _ _ ⟨answers, r, s1, s2, pcnt, rfl, hdetect, rfl⟩
  rw [hcycle] at hdetect
  by_cases hr : r = .success
  · subst hr
    rw [pollExit_element_success (by exact hop)]
    split_ifs with hnext
    · exact (elements_reach (f := { f.polled s1 s2 pcnt with idx := f.idx + 1 }) hop (by exact hidx.symm ▸ hnext)).mono
        fun _ _ h => BufferRun.cons (x := f.polled s1 s2 pcnt) hop hdetect hlt h
    · have hlast : f.idx.toNat + 1 = f.len.toNat := Nat.le_antisymm hlt (Nat.not_lt.mp hnext)
      have hlen : f.idx + 1 = f.len := BitVec.eq_of_toNat_eq (hidx.trans hlast)
      exact .lastReset ⟨[answers], f.polled s1 s2 pcnt, .cons hdetect .nil, .inl ⟨hlast, by simp [elementEvents, hcycle],
        congrArg (f.bufferEnded .ok · f.failIdx (f.polled s1 s2 pcnt)) hlen⟩⟩
  · rw [pollExit_element_fails (by exact hop) hr]
    have hfirst : BitVec.ofNat 16 (f.idx.toNat + 0) = f.idx := by simp
    exact .twoResets ⟨[], f.polled s1 s2 pcnt, .nil, .inr ⟨hlt, answers, r, hdetect, hr, by simp [elementEvents, hcycle],
      by rw [List.length_nil, hfirst]; rfl⟩⟩
termination_by f.len.toNat - f.idx.toNat
decreasing_by
  simp only [Fce.polled, hidx]
  omega

/-- The elements of a legal range are programmed from the operand on, which its register holds. -/
theorem elementEvents_latched {o : Operands} (hrange : o.addr + o.len.toNat ≤ c.flashSize) {bytes : Nat → Byte}
    {tried : List (List Byte)} (htried : tried.length ≤ o.len.toNat) :
    elementEvents (f.latched c.toParams 0x04 o).addr bytes 0 tried = elementEvents o.addr bytes 0 tried := by
  cases tried with
  | nil => rfl
  | cons answers tried =>
    rw [List.length_cons] at htried
    rw [latched_addr c 0x04 f (by omega : o.addr < c.flashSize)]

/-- An accepted `PROGRAM_BUFFER`, an empty one included. -/
theorem buffer_reaches {o : Operands} (hlen : o.len.toNat ≤ c.bufMax) (hrange : o.addr + o.len.toNat ≤ c.flashSize)
    (hid : f.idValid = true) :
    Reaches c (acceptance c.toParams 0x04 o f) (BufferRun c.toParams (f.latched c.toParams 0x04 o)) := by
  rw [acceptance_buffer hlen hrange hid]
  split_ifs with hempty
  · exact .lastReset ⟨[], f, .nil, .inl ⟨by simp [Fce.latched, hempty], by simp [elementEvents],
      congrArg (Fce.bufferEnded (f.latched c.toParams 0x04 o) .ok · f.failIdx f) hempty.symm⟩⟩
  · have hpos : 0 < o.len.toNat := Nat.pos_of_ne_zero fun h => hempty (BitVec.eq_of_toNat_eq h)
    exact elements_reach rfl hpos

/-! ### `READ` (R132) -/

theorem read_reaches : Reaches c (f.goTo .rd) fun events g =>
    ∃ d, events = [.r f.addr d] ∧ g = { f.ended .ok with rdata := d } :=
  .row fun d => ⟨_, rfl, .done ⟨d, rfl, rfl⟩⟩

end

/-! ### The obligations -/

/-- Settles O13: the autoselect stores, the two identity loads, the reset sequence on both outcomes. -/
theorem identifyOperation : Obligations.IdentifyOperation := by
  unfold Obligations.IdentifyOperation
  intro o s hidle
  obtain ⟨_, u, hcompletes, m, d, rfl, hfce⟩ := Reaches.completes (identify_idle o s hidle) identify_reaches
    (by rintro _ _ ⟨m, d, -, rfl⟩; exact ⟨rfl, rfl⟩)
  exact ⟨m, d, u, hcompletes, hfce⟩

/-- Settles O14: the rows of R121 that end it, else the six stores, the two spins and the reset sequence. -/
theorem eraseBlockOperation : Obligations.EraseBlockOperation := by
  unfold Obligations.EraseBlockOperation
  intro o s hidle
  have herase := eraseBlock_idle o s hidle
  refine ⟨fun hblk => ?_, fun hblk hid => ?_, fun hblk hid => ?_⟩
  · exact completes_of_acceptance herase (acceptance_invalidBlock hblk)
  · exact completes_of_acceptance herase (acceptance_notIdentified hid (.inl ⟨rfl, hblk⟩))
  · obtain ⟨_, u, hcompletes, spin, poll, code, s1, s2, pcnt, rfl, hends, hfce⟩ :=
      Reaches.completes herase (acceptance_erases hblk hid ▸ erase_reaches rfl)
        (by rintro _ _ ⟨spin, poll, code, s1, s2, pcnt, -, -, rfl⟩; exact ⟨rfl, rfl⟩)
    exact ⟨spin, poll, code, s1, s2, pcnt, u, hcompletes, hends, hfce⟩

/-- Settles O15: the rows of R121 that end it, else the four stores, completion detection, and the reset sequence unless the
byte was programmed. -/
theorem programByteOperation : Obligations.ProgramByteOperation := by
  unfold Obligations.ProgramByteOperation
  intro o s hidle
  have hbyte := programByte_idle o s hidle
  refine ⟨fun haddr => ?_, fun haddr hid => ?_, fun haddr hid => ?_⟩
  · exact completes_of_acceptance hbyte (acceptance_invalidAddress (.inl rfl) haddr)
  · exact completes_of_acceptance hbyte (acceptance_notIdentified hid (.inr (.inl ⟨rfl, haddr⟩)))
  · obtain ⟨_, u, hcompletes, poll, r, s1, s2, pcnt, hdetect, rfl, hfce⟩ :=
      Reaches.completes hbyte (acceptance_programs haddr hid ▸ byte_reaches rfl rfl)
        (by rintro _ _ ⟨poll, r, s1, s2, pcnt, -, -, rfl⟩; exact ⟨rfl, rfl⟩)
    rw [latched_addr s.cfg 0x03 s.fce haddr] at hcompletes hfce
    exact ⟨poll, r, s1, s2, pcnt, u, hdetect, hcompletes, hfce⟩

/-- Settles O16: the rows of R121 that end it, else its elements from the first on, by the number left. -/
theorem programBufferOperation : Obligations.ProgramBufferOperation := by
  unfold Obligations.ProgramBufferOperation
  intro o s hidle
  have hbuffer := programBuffer_idle o s hidle
  refine ⟨fun hrange => ?_, fun hlen hrange hid => ?_, fun hlen hrange hid => ?_⟩
  · exact completes_of_acceptance hbuffer (acceptance_invalidRange hrange)
  · exact completes_of_acceptance hbuffer (acceptance_notIdentified hid (.inr (.inr ⟨rfl, hlen, hrange⟩)))
  · obtain ⟨events, u, hcompletes, tried, x, hsucceed, hend⟩ :=
      Reaches.completes hbuffer (buffer_reaches hlen hrange hid)
        (by rintro _ _ ⟨tried, x, -, ⟨-, -, rfl⟩ | ⟨-, answers, r, -, -, -, rfl⟩⟩ <;> exact ⟨rfl, rfl⟩)
    have hfirst : (s.fce.latched s.cfg.toParams 0x04 o).idx.toNat = 0 := rfl
    simp only [hfirst, Nat.zero_add, ElementsSucceed] at hsucceed hend
    refine ⟨tried, x.paddr, x.exp, x.s1, x.s2, x.pcnt, u, hsucceed, ?_⟩
    obtain ⟨hall, rfl, hfce⟩ | ⟨hless, answers, r, hdetect, hr, rfl, hfce⟩ := hend
    · rw [elementEvents_latched hrange hall.le] at hcompletes
      exact .inl ⟨hall, hfce, hcompletes⟩
    · rw [elementEvents_latched hrange (by rw [List.length_append]; exact hless)] at hcompletes
      exact .inr ⟨hless, answers, r, hdetect, hr, hfce, hcompletes⟩

/-- Settles O17: the row of R121 that ends it, else the one load of row RD. -/
theorem readOperation : Obligations.ReadOperation := by
  unfold Obligations.ReadOperation
  intro o s hidle
  have hread := read_idle o s hidle
  refine ⟨fun haddr => ?_, fun haddr => ?_⟩
  · exact completes_of_acceptance hread (acceptance_invalidAddress (.inr rfl) haddr)
  · obtain ⟨_, u, hcompletes, d, rfl, hfce⟩ :=
      Reaches.completes hread (acceptance_reads haddr ▸ read_reaches) (by rintro _ _ ⟨d, -, rfl⟩; exact ⟨rfl, rfl⟩)
    rw [latched_addr s.cfg 0x05 s.fce haddr] at hcompletes
    exact ⟨d, u, hcompletes, hfce⟩

/-- Settles O18: the one reset sequence of `enter_reset(1, Ok)`. -/
theorem resetOperation : Obligations.ResetOperation := by
  unfold Obligations.ResetOperation
  intro o s hidle
  obtain ⟨_, u, hcompletes, rfl, hfce⟩ := Reaches.completes (reset_idle o s hidle)
    (.lastReset (Q := fun events g => events = resetEvents ∧ g = (s.fce.latched s.cfg.toParams 0x06 o).published .ok)
      ⟨rfl, rfl⟩)
    (by rintro _ _ ⟨-, rfl⟩; exact ⟨rfl, rfl⟩)
  exact ⟨u, hcompletes, hfce⟩

end Sys2Proof.Machine
end

section
/-! PROOFS. How every request ends: within the bound of R125 on its bus cycles and by an exit of R134. -/

namespace Sys2Proof.Machine

/-! ### Lengths -/

@[simp] theorem loadEvents_length (a : Nat) (answers : List Byte) : (loadEvents a answers).length = answers.length :=
  List.length_map _

@[simp] theorem resetEvents_length : resetEvents.length = 3 := rfl

@[simp] theorem seqProgram_length (a : Nat) (v : Byte) : (wireEvents (.seqProgram a v)).length = 4 := rfl

@[simp] theorem seqBlockErase_length (a : Nat) : (wireEvents (.seqBlockErase a)).length = 6 := rfl

/-- Completion detection makes as many first loads as its bound leaves and one re-read at most (R127). -/
theorem detect_length_le {bound : Nat} {exp : Byte} {n : Nat} {answers : List Byte} {r : PollResult} {k : Nat}
    (h : detect bound exp n answers = some (r, k)) (hn : n < bound) : k + n ≤ bound + 1 := by
  induction answers generalizing n r k with
  | nil => simp [detect] at h
  | cons s1 rest ih =>
    unfold detect at h
    split_ifs at h with hdone hexceeded hlast
    · simp only [Option.some.injEq, Prod.mk.injEq] at h; omega
    · cases rest <;> simp at h; omega
    · simp only [Option.some.injEq, Prod.mk.injEq] at h; omega
    · obtain ⟨⟨r', k'⟩, hrest, heq⟩ := Option.map_eq_some_iff.mp h
      have := ih hrest (by omega)
      simp only [Prod.mk.injEq] at heq
      omega

/-- The erase-started spin makes as many loads as its bound leaves at most (R126). -/
theorem awaitStart_length_le {bound n : Nat} {answers : List Byte} {seen : Bool} {k : Nat}
    (h : awaitStart bound n answers = some (seen, k)) (hn : n < bound) : k + n ≤ bound := by
  induction answers generalizing n seen k with
  | nil => simp [awaitStart] at h
  | cons s1 rest ih =>
    unfold awaitStart at h
    split_ifs at h with hseen hlast
    · simp only [Option.some.injEq, Prod.mk.injEq] at h; omega
    · simp only [Option.some.injEq, Prod.mk.injEq] at h; omega
    · obtain ⟨⟨seen', k'⟩, hrest, heq⟩ := Option.map_eq_some_iff.mp h
      have := ih hrest (by omega)
      simp only [Prod.mk.injEq] at heq
      omega

theorem elementEvents_length_le {addr : Nat} {bytes : Nat → Byte} {i b : Nat} {tried : List (List Byte)}
    (h : ∀ answers ∈ tried, answers.length ≤ b + 1) :
    (elementEvents addr bytes i tried).length ≤ tried.length * (4 + b + 1) := by
  induction tried generalizing i with
  | nil => simp [elementEvents]
  | cons answers tried ih =>
    obtain ⟨hfirst, hrest⟩ := List.forall_mem_cons.mp h
    have := ih (i := i + 1) hrest
    simp only [elementEvents, List.length_append, seqProgram_length, loadEvents_length, List.length_cons, Nat.succ_mul]
    omega

/-! ### How every request ends -/

/-- The bus cycles of a request are within the bound of R125, and where there are any, they end by an exit of R134. -/
structure EndsProperly (c : Params) (i : Instr) (events : List BusEvent) (u : State) : Prop where
  bound : events.length ≤ cycleBound c i
  exit : events ≠ [] →
    (∃ before, events = before ++ resetEvents) ∨ (∃ o, i = .programByte o ∧ u.fce.result = .ok) ∨
    (∃ o d, i = .read o ∧ events = [.r o.addr d])

theorem EndsProperly.nil {c : Params} {i : Instr} {u : State} : EndsProperly c i [] u := ⟨Nat.zero_le _, absurd rfl⟩

/-- Request `i`, presented in `s`, completes and ends properly. -/
def EndsFrom (s : State) (i : Instr) : Prop :=
  ∃ events u, Completes i s events u ∧ EndsProperly s.cfg.toParams i events u

section
variable {o : Operands} {s : State} (hidle : s.fce.phase = .idle)
include hidle

theorem identify_ends : EndsFrom s (.identify o) := by
  obtain ⟨m, d, u, hcompletes, -⟩ := identifyOperation o s hidle
  exact ⟨_, u, hcompletes, le_rfl, fun _ => .inl ⟨_, rfl⟩⟩

theorem eraseBlock_ends : EndsFrom s (.eraseBlock o) := by
  obtain ⟨hbad, hunknown, hruns⟩ := eraseBlockOperation o s hidle
  obtain hblk | hblk := Nat.lt_or_ge o.blk.toNat s.cfg.numBlocks
  · cases hid : s.fce.idValid
    · exact ⟨_, _, hunknown hblk hid, .nil⟩
    · obtain ⟨spin, poll, code, s1, s2, pcnt, u, hcompletes, hspins, -⟩ := hruns hblk hid
      refine ⟨_, u, hcompletes, ?_, fun _ => .inl ⟨_, rfl⟩⟩
      have hspin : spin.length ≤ s.cfg.dq3Bound ∧ poll.length ≤ s.cfg.pollBound + 1 := by
        obtain ⟨hspin, rfl, -⟩ | ⟨hspin, r, hpoll, -⟩ := hspins
        · exact ⟨awaitStart_length_le hspin (dq3Bound_pos _), Nat.zero_le _⟩
        · exact ⟨awaitStart_length_le hspin (dq3Bound_pos _), detect_length_le hpoll (pollBound_pos _)⟩
      simp only [List.length_append, seqBlockErase_length, loadEvents_length, resetEvents_length, cycleBound]
      omega
  · exact ⟨_, _, hbad hblk, .nil⟩

theorem programByte_ends : EndsFrom s (.programByte o) := by
  obtain ⟨hbad, hunknown, hruns⟩ := programByteOperation o s hidle
  obtain haddr | haddr := Nat.lt_or_ge o.addr s.cfg.flashSize
  · cases hid : s.fce.idValid
    · exact ⟨_, _, hunknown haddr hid, .nil⟩
    · obtain ⟨poll, r, s1, s2, pcnt, u, hdetect, hcompletes, hfce⟩ := hruns haddr hid
      have hpoll : poll.length ≤ s.cfg.pollBound + 1 := detect_length_le hdetect (pollBound_pos _)
      have hexit : (if r = .success then [] else resetEvents).length ≤ 3 := by split_ifs <;> simp
      refine ⟨_, u, hcompletes, ?_, fun _ => ?_⟩
      · simp only [List.length_append, seqProgram_length, loadEvents_length, cycleBound]
        omega
      · by_cases hr : r = .success
        · exact .inr (.inl ⟨o, rfl, by rw [hfce, hr]; rfl⟩)
        · exact .inl ⟨_, by rw [if_neg hr]⟩
  · exact ⟨_, _, hbad haddr, .nil⟩

theorem programBuffer_ends : EndsFrom s (.programBuffer o) := by
  obtain ⟨hbad, hunknown, hruns⟩ := programBufferOperation o s hidle
  by_cases hlegal : o.len.toNat ≤ s.cfg.bufMax ∧ o.addr + o.len.toNat ≤ s.cfg.flashSize
  · obtain ⟨hlen, hrange⟩ := hlegal
    cases hid : s.fce.idValid
    · exact ⟨_, _, hunknown hlen hrange hid, .nil⟩
    · obtain ⟨tried, paddr, exp, s1, s2, pcnt, u, hsucceed, hend⟩ := hruns hlen hrange hid
      have htried : ∀ answers ∈ tried, answers.length ≤ s.cfg.pollBound + 1 := by
        intro answers hmem
        obtain ⟨i, hi, rfl⟩ := List.getElem_of_mem hmem
        exact detect_length_le (hsucceed i hi) (pollBound_pos _)
      obtain ⟨hall, -, hcompletes⟩ | ⟨hless, answers, r, hdetect, -, -, hcompletes⟩ := hend
      · refine ⟨_, u, hcompletes, ?_, fun _ => .inl ⟨_, rfl⟩⟩
        have := elementEvents_length_le (addr := o.addr) (bytes := bufByte s) (i := 0) htried
        simp only [List.length_append, resetEvents_length, cycleBound, ← hall]
        omega
      · refine ⟨_, u, hcompletes, ?_, fun _ => .inl ⟨_, rfl⟩⟩
        have hlast : answers.length ≤ s.cfg.pollBound + 1 := detect_length_le hdetect (pollBound_pos _)
        have := elementEvents_length_le (addr := o.addr) (bytes := bufByte s) (i := 0) (tried := tried ++ [answers])
          (List.forall_mem_append.mpr ⟨htried, List.forall_mem_singleton.mpr hlast⟩)
        have hcount := Nat.mul_le_mul_right (4 + s.cfg.pollBound + 1) (show tried.length + 1 ≤ o.len.toNat from hless)
        simp only [List.length_append, List.length_singleton, resetEvents_length, cycleBound] at this ⊢
        omega
  · exact ⟨_, _, hbad (by omega), .nil⟩

theorem read_ends : EndsFrom s (.read o) := by
  obtain ⟨hbad, hruns⟩ := readOperation o s hidle
  obtain haddr | haddr := Nat.lt_or_ge o.addr s.cfg.flashSize
  · obtain ⟨d, u, hcompletes, -⟩ := hruns haddr
    exact ⟨_, u, hcompletes, le_rfl, fun _ => .inr (.inr ⟨o, d, rfl, rfl⟩)⟩
  · exact ⟨_, _, hbad haddr, .nil⟩

theorem reset_ends : EndsFrom s (.reset o) := by
  obtain ⟨u, hcompletes, -⟩ := resetOperation o s hidle
  exact ⟨_, u, hcompletes, le_rfl, fun _ => .inl ⟨[], rfl⟩⟩

theorem request_ends {i : Instr} (hi : i.isRequest = true) : EndsFrom s i := by
  cases i <;> simp only [Instr.isRequest, Bool.false_eq_true] at hi
  case identify o => exact identify_ends hidle
  case eraseBlock o => exact eraseBlock_ends hidle
  case programByte o => exact programByte_ends hidle
  case programBuffer o => exact programBuffer_ends hidle
  case read o => exact read_ends hidle
  case reset o => exact reset_ends hidle
  case reservedRequest op o => exact ⟨_, _, completes_ended (reserved_idle o s hidle op), .nil⟩

end

/-! ### A request completes in one way -/

/-- An idle FCE has no step of its own (R123). -/
theorem fceStep_idle {s : State} (hidle : s.fce.phase = .idle) : fceStep s = .next s := by
  simp only [fceStep, phaseCommand, fceLoad, hidle]

theorem fceRun_idle {s : State} (hidle : s.fce.phase = .idle) (n : Nat) : fceRun n s = .next s := by
  induction n with
  | zero => rfl
  | succ n ih => rw [fceRun, fceStep_idle hidle]; exact ih

theorem Completes.unique {i : Instr} {s u u' : State} {events events' : List BusEvent} (h : Completes i s events u)
    (h' : Completes i s events' u') : u' = u ∧ events' = events := by
  wlog hle : events.length ≤ events'.length generalizing events events' u u'
  · exact (this h' h (Nat.le_of_not_le hle)).imp Eq.symm Eq.symm
  obtain ⟨t, hexec, hrun, ⟨f, dev, draws, hu⟩, hidle, -⟩ := h
  obtain ⟨t', hexec', hrun', ⟨f', dev', draws', hu'⟩, -⟩ := h'
  cases hexec.symm.trans hexec'
  obtain ⟨n, hn⟩ := Nat.exists_eq_add_of_le hle
  rw [hn, fceRun_add _ _ _ _ hrun, fceRun_idle hidle] at hrun'
  obtain rfl := Host.Outcome.next.inj hrun'
  have htrace := congrArg State.busTrace (hu.symm.trans hu')
  exact ⟨rfl, (List.append_cancel_left htrace).symm⟩

/-! ### The obligations -/

/-- Settles O27: by operation; each spin is bounded and each element of a buffer has one. -/
theorem everyOperationEnds : Obligations.EveryOperationEnds := by
  unfold Obligations.EveryOperationEnds
  intro i s hi hidle
  obtain ⟨events, u, hcompletes, hends⟩ := request_ends hidle hi
  exact ⟨events, u, hcompletes, hends.bound⟩

/-- Settles O28: the one way a request completes is the one its operation describes. -/
theorem exitPathRestoresReadMode : Obligations.ExitPathRestoresReadMode := by
  unfold Obligations.ExitPathRestoresReadMode
  intro i s events u hi hidle hcompletes hissued
  obtain ⟨events', u', hcompletes', hends⟩ := request_ends hidle hi
  obtain ⟨rfl, rfl⟩ := hcompletes.unique hcompletes'
  exact hends.exit hissued

end Sys2Proof.Machine
end

section
/-! PROOFS. The frames of FCE's steps in every state, FCE's invariant or not: of a wire command at any phase, and of every
row of the phase table (R123, R124). -/

namespace Sys2Proof.Machine

/-! ### A store at the reference device -/

/-- A store changes the array at its own offset at most. -/
theorem RefDev.store_arr_other {r : RefDev} {c : Params} {a b : Nat} {d : Byte} (hb : b ≠ a) :
    (r.store c a d).arr.read b = r.arr.read b := by
  have hcommand : (r.storeCommand c a d).arr.read b = r.arr.read b := by
    by_cases hpgmw : r.cpos = .pgmw
    · simp only [RefDev.storeCommand, hpgmw, ne_eq, not_true_eq_false, false_and, if_false, RefDev.startProgram]
      split_ifs
      · exact Memory.read_write_other _ _ _ _ hb
      · rfl
    · rw [RefDev.storeCommand_arr hpgmw]
  unfold RefDev.store
  split
  case h_1 | h_2 => exact hcommand
  case h_3 | h_4 => rfl
  case h_5 => split_ifs <;> rfl

/-! ### Wire commands (R92 to R95) -/

/-- `t` is `s` after the store `x` and writes of the registers store rows write; `result` and `done` are row RS3's. -/
structure StoreCycle (s : State) (x : Cycle) (t : State) : Prop where
  call : t = { busWrite x.offset x.byte s with fce := t.fce }
  fce : t.fce = { s.fce with
    phase := t.fce.phase, paddr := t.fce.paddr, exp := t.fce.exp, pcnt := t.fce.pcnt, rsLeft := t.fce.rsLeft
    result := t.fce.result, done := t.fce.done }
  ended : s.fce.phase ≠ .rs3 → t.fce.result = s.fce.result ∧ t.fce.done = s.fce.done

/-- `t` is `s` after the one store of the wire command `i` that FCE's phase stands for. -/
def MakesItsStore (i : Instr) (s t : State) : Prop :=
  ∃ x, (cyclesOf i)[cycleNumber i s.fce.phase]? = some x ∧ StoreCycle s x t

section
variable {i : Instr} {s t : State} {x : Cycle}

theorem StoreCycle.frame (h : StoreCycle s x t) :
    FceOnly s [.w x.offset x.byte] t ∧
    t.dev = (if s.winEn then s.dev.store s.cfg.toParams x.offset x.byte else s.dev) ∧
    (∀ a, bufByte t a = bufByte s a) ∧ ∀ a, a ≠ x.offset → arrayByte t a = arrayByte s a := by
  have hdev : t.dev = if s.winEn then s.dev.store s.cfg.toParams x.offset x.byte else s.dev := by
    rw [h.call]; exact busWrite_dev s _ _
  refine ⟨?_, hdev, fun a => ?_, fun a ha => ?_⟩
  · rw [h.call, busWrite_spec]
    exact ⟨_, _, _, rfl⟩
  · rw [bufByte, h.fce]; rfl
  · unfold arrayByte
    rw [hdev]
    cases hd : s.dev with
    | oracle answers => split_ifs <;> rfl
    | refDev r =>
      split_ifs
      · exact congrArg some (RefDev.store_arr_other ha)
      · rfl

/-- A store that only goes on to phase `q`. -/
theorem MakesItsStore.storeTo {a : Nat} {d : Byte} {q : Phase}
    (hx : (cyclesOf i)[cycleNumber i s.fce.phase]? = some ⟨a, d⟩) : MakesItsStore i s (toPhase q (busWrite a d s)) :=
  ⟨⟨a, d⟩, hx, rfl, by simp, fun _ => by simp⟩

/-- The data store of a program and the confirm store of an erase. -/
theorem MakesItsStore.expect {a b : Nat} {d v : Byte} {q : Phase}
    (hx : (cyclesOf i)[cycleNumber i s.fce.phase]? = some ⟨a, d⟩)
    (h : inWindow b s (.next (toPhase q (expect a v (busWrite a d s)))) = .next t) : MakesItsStore i s t := by
  obtain ⟨-, heq⟩ := inWindow_next s h
  cases heq
  exact ⟨⟨a, d⟩, hx, rfl, by simp, fun _ => by simp⟩

theorem seqAutoselect_store (h : exec .seqAutoselect s = .next t) : MakesItsStore .seqAutoselect s t := by
  cases hp : s.fce.phase <;> simp only [exec, execSeqAutoselect, hp] at h <;> cases h <;> exact .storeTo (by rw [hp]; rfl)

theorem seqReset_store (h : exec .seqReset s = .next t) : MakesItsStore .seqReset s t := by
  cases hp : s.fce.phase <;> simp only [exec, execSeqReset, hp] at h <;> cases h
  case rs3 =>
    refine ⟨⟨0xAAA, 0xF0⟩, by rw [hp]; rfl, ?_, ?_, absurd hp⟩ <;> rw [resetSequenceDone_eq, command]
    · rfl
    · simp only [State.onFce_fce, busWrite_fce, Fce.sequenceEnded]
      split_ifs <;> rfl
  all_goals exact .storeTo (by rw [hp]; rfl)

theorem seqProgram_store {a : Nat} {v : Byte} (h : exec (.seqProgram a v) s = .next t) :
    MakesItsStore (.seqProgram a v) s t := by
  cases hp : s.fce.phase <;> simp only [exec, execSeqProgram, hp] at h
  case pg4 => exact .expect (by rw [hp]; rfl) h
  all_goals cases h; exact .storeTo (by rw [hp]; rfl)

theorem seqBlockErase_store {a : Nat} (h : exec (.seqBlockErase a) s = .next t) :
    MakesItsStore (.seqBlockErase a) s t := by
  cases hp : s.fce.phase <;> simp only [exec, execSeqBlockErase, hp] at h
  case er6 => exact .expect (by rw [hp]; rfl) h
  all_goals cases h; exact .storeTo (by rw [hp]; rfl)

/-- A wire command that answers next makes the store its phase stands for. -/
theorem wire_store (hwire : i.isWire = true) (h : exec i s = .next t) : MakesItsStore i s t := by
  cases i <;> simp only [Instr.isWire, Bool.false_eq_true] at hwire
  case seqAutoselect => exact seqAutoselect_store h
  case seqReset => exact seqReset_store h
  case seqProgram a v => exact seqProgram_store h
  case seqBlockErase a => exact seqBlockErase_store h

/-- A wire command answers next, but for a store outside the window (log 21). -/
theorem wire_next (hwire : i.isWire = true)
    (hprogram : ∀ a v, i = .seqProgram a v → s.fce.phase = .pg4 → a < s.cfg.flashSize)
    (herase : ∀ a, i = .seqBlockErase a → s.fce.phase = .er6 → a < s.cfg.flashSize) : ∃ t, exec i s = .next t := by
  cases i <;> simp only [Instr.isWire, Bool.false_eq_true] at hwire
  case seqAutoselect => simp only [exec, execSeqAutoselect]; split <;> exact ⟨_, rfl⟩
  case seqReset => simp only [exec, execSeqReset]; split <;> exact ⟨_, rfl⟩
  case seqProgram a v =>
    simp only [exec, execSeqProgram]
    split
    case h_3 hp => exact ⟨_, inWindow_of_lt s _ (hprogram a v rfl hp)⟩
    all_goals exact ⟨_, rfl⟩
  case seqBlockErase a =>
    simp only [exec, execSeqBlockErase]
    split
    case h_5 hp => exact ⟨_, inWindow_of_lt s _ (herase a rfl hp)⟩
    all_goals exact ⟨_, rfl⟩

end

/-! ### Every row (R123, R124) -/

/-- The status FCE would load says that the operation has completed (R98). -/
def State.completed (s : State) : Prop := (devAnswer s.fce.paddr s).getLsbD 7 = s.fce.exp.getLsbD 7

theorem statusDone_iff (s : State) : statusDone s.fce.exp (devAnswer s.fce.paddr s) = true ↔ s.completed := beq_iff_eq

/-- The registers an FCE step may write, by phase; `completed` says that the status it loads, if any, says so. A field that is
not given is closed by `rfl`: a row's proof names only the registers that row writes. -/
structure Fce.StepFrame (completed : Prop) (f f' : Fce) : Prop where
  op : f'.op = f.op := by rfl
  blk : f'.blk = f.blk := by rfl
  addr : f'.addr = f.addr := by rfl
  val : f'.val = f.val := by rfl
  len : f'.len = f.len := by rfl
  buf : f'.buf = f.buf := by rfl
  rdata : f.phase ≠ .rd → f'.rdata = f.rdata := by intro _; rfl
  idMfr : f.phase ≠ .idr1 → f'.idMfr = f.idMfr := by intro _; rfl
  identity : f.phase ≠ .idr2 → f'.idDev = f.idDev ∧ f'.idValid = f.idValid := by intro _; exact ⟨rfl, rfl⟩
  ended : f.phase ≠ .rs3 → f.phase ≠ .rd → ¬ ((f.phase = .pl1 ∨ f.phase = .pl2) ∧ f.op = 0x03 ∧ completed) →
    f'.result = f.result ∧ f'.done = f.done := by intro _ _ _; exact ⟨rfl, rfl⟩
  failIdx : ¬ ((f.phase = .pl1 ∨ f.phase = .pl2) ∧ f.op = 0x04 ∧ ¬ completed) →
    f'.failIdx = f.failIdx := by intro _; rfl

section
variable {s t : State} {completed : Prop} {f f' g : Fce}

/-- Writes of no register of R22, R24 or R26. -/
theorem Fce.StepFrame.of_quiet (h : f' = { f with
    phase := f'.phase, idx := f'.idx, paddr := f'.paddr, exp := f'.exp, s1 := f'.s1, s2 := f'.s2, pcnt := f'.pcnt
    rsLeft := f'.rsLeft, res := f'.res }) : f.StepFrame completed f' := by
  rw [h]
  exact {}

/-- A store row. -/
theorem StoreCycle.stepFrame {x : Cycle} (h : StoreCycle s x t) : s.fce.StepFrame completed t.fce := by
  have hended := h.ended
  rw [h.fce] at hended ⊢
  exact { ended := fun hrs3 _ _ => hended hrs3 }

/-- An exit of completion detection (R124). -/
theorem pollExit_stepFrame {r : PollResult} (hpolls : f.phase = .pl1 ∨ f.phase = .pl2)
    (hg : g = { f with s1 := g.s1, s2 := g.s2, pcnt := g.pcnt }) (hop : g.op = 0x02 ∨ g.op = 0x03 ∨ g.op = 0x04)
    (hr : r = .success ↔ completed) : f.StepFrame completed (pollExit g r) := by
  have hgop : g.op = f.op := by rw [hg]
  obtain hop | hop | hop := hop
  · rw [pollExit_erase hop, hg]
    exact .of_quiet rfl
  · by_cases hsuccess : r = .success
    · subst hsuccess
      rw [pollExit_byte_success hop, hg]
      exact { ended := fun _ _ hnot => absurd ⟨hpolls, hgop ▸ hop, hr.mp rfl⟩ hnot }
    · rw [pollExit_byte_fails hop hsuccess, hg]
      exact .of_quiet rfl
  · by_cases hsuccess : r = .success
    · subst hsuccess
      rw [pollExit_element_success hop, hg]
      split_ifs <;> exact .of_quiet rfl
    · rw [pollExit_element_fails hop hsuccess, hg]
      exact { failIdx := fun hnot => absurd ⟨hpolls, hgop ▸ hop, mt hr.mpr hsuccess⟩ hnot }

theorem spinEraseStarted_stepFrame (s : State) : s.fce.StepFrame completed (spinEraseStarted s).fce := by
  unfold spinEraseStarted
  dsimp only
  split_ifs <;> refine .of_quiet ?_ <;> simp [statusLoad_fce]

theorem pollFirst_stepFrame (hp : s.fce.phase = .pl1) (h : pollFirst s = .next t) : s.fce.StepFrame s.completed t.fce := by
  have hdone := statusDone_iff s
  unfold pollFirst at h
  dsimp only at h
  split_ifs at h with hcompleted
  · rw [pollSuccess_next h]
    exact pollExit_stepFrame (r := .success) (.inl hp) (by rw [statusLoad_fce]) (exit_op (.inl h))
      (iff_of_true rfl (hdone.mp hcompleted))
  · cases h
    exact .of_quiet (by simp [statusLoad_fce])
  · rw [pollTimeout_next h]
    exact pollExit_stepFrame (r := .timeout) (.inl hp) (by rw [statusLoad_fce]) (exit_op (.inr (.inr h)))
      (iff_of_false nofun (mt hdone.mpr hcompleted))
  · cases h
    exact .of_quiet (by simp [statusLoad_fce])

theorem pollAgain_stepFrame (hp : s.fce.phase = .pl2) (h : pollAgain s = .next t) : s.fce.StepFrame s.completed t.fce := by
  have hdone := statusDone_iff s
  unfold pollAgain at h
  dsimp only at h
  split_ifs at h with hcompleted
  · rw [pollSuccess_next h]
    exact pollExit_stepFrame (r := .success) (.inr hp) (by simp) (exit_op (.inl h))
      (iff_of_true rfl (hdone.mp hcompleted))
  · rw [pollFailure_next h]
    exact pollExit_stepFrame (r := .failure) (.inr hp) (by simp) (exit_op (.inr (.inl h)))
      (iff_of_false nofun (mt hdone.mpr hcompleted))

/-- The load rows. -/
theorem fceLoad_stepFrame (h : fceLoad s = .next t) : s.fce.StepFrame s.completed t.fce := by
  cases hp : s.fce.phase <;> simp only [fceLoad, hp] at h
  case idr1 =>
    cases h
    simp only [loadMfr, toPhase_eq, State.onFce_fce, busRead_fce]
    exact { idMfr := absurd hp }
  case idr2 =>
    cases h
    simp only [loadDev, enterReset_eq, State.onFce_fce, busRead_fce]
    exact { identity := absurd hp }
  case dq3 =>
    obtain ⟨-, heq⟩ := inWindow_next s h
    cases heq
    exact spinEraseStarted_stepFrame s
  case pl1 => exact pollFirst_stepFrame hp (inWindow_next s h).2
  case pl2 => exact pollAgain_stepFrame hp (inWindow_next s h).2
  case rd =>
    obtain ⟨-, heq⟩ := inWindow_next s h
    cases heq
    simp only [plainLoad, finish_eq, State.onFce_fce, busRead_fce]
    exact { rdata := absurd hp, ended := fun _ hrd => absurd hp hrd }
  all_goals cases h; exact .of_quiet rfl

/-- A store row of FCE is the execution of its wire command. -/
theorem fceStep_command {i : Instr} (hc : phaseCommand s = some i) : i.isWire = true ∧ fceStep s = exec i s := by
  have hbusy : s.fce.phase ≠ .idle := fun hidle => by simp [phaseCommand, hidle] at hc
  refine ⟨?_, (core_busy s hbusy).symm.trans (core_command hbusy hc)⟩
  cases hp : s.fce.phase <;> simp only [phaseCommand, hp, Option.some.injEq, reduceCtorEq] at hc <;> subst hc <;> rfl

theorem fceStep_stepFrame (h : fceStep s = .next t) : s.fce.StepFrame s.completed t.fce := by
  cases hc : phaseCommand s with
  | some i =>
    obtain ⟨hwire, hexec⟩ := fceStep_command hc
    obtain ⟨x, -, hstore⟩ := wire_store hwire (hexec ▸ h)
    exact hstore.stepFrame
  | none =>
    simp only [fceStep, hc] at h
    exact fceLoad_stepFrame h

/-- With the window disabled DEV is left alone (R59, U4). -/
theorem fceStep_closed_window (h : fceStep s = .next t) (hwin : s.winEn = false) : t.dev = s.dev := by
  by_cases hidle : s.fce.phase = .idle
  · cases (fceStep_idle hidle).symm.trans h
    rfl
  · obtain ⟨u, f, hcall, -, rfl⟩ := fceStep_row hidle h
    cases hcall with
    | store a d => exact (closed_window_leaves_dev s hwin a d).1
    | load a => exact (closed_window_leaves_dev s hwin a 0).2

end

/-! ### The obligations -/

/-- Settles O20: by wire command and phase; the array changes at the store's offset at most. -/
theorem wireCommandCycle : Obligations.WireCommandCycle := by
  unfold Obligations.WireCommandCycle
  intro i s hwire hprogram herase
  obtain ⟨t, hexec⟩ := wire_next hwire hprogram herase
  obtain ⟨x, hx, hstore⟩ := wire_store hwire hexec
  obtain ⟨honly, hdev, hbuf, harray⟩ := hstore.frame
  exact ⟨t, x, hx, hexec, honly, hdev, hstore.fce, hbuf, harray⟩

/-- Settles O23: by row; a store row is a wire command's, and of the load rows only the exits of R124 look at `op`. -/
theorem fceStepFrame : Obligations.FceStepFrame := by
  unfold Obligations.FceStepFrame
  intro s t hstep
  have h := fceStep_stepFrame hstep
  exact ⟨h.op, h.blk, h.addr, h.val, h.len, fun a => congrArg (Memory.read · a) h.buf, fceStep_closed_window hstep,
    h.rdata, h.idMfr, h.identity, h.ended, h.failIdx⟩

end Sys2Proof.Machine
end

section
/-! PROOFS. The dispatcher (R150, R151), `WaitTick` (R154) and the wait for FCE (R153) as laws of a body's step; the
statements of 41_sequencer.md on one step and the default of R161. -/

namespace Sys2Proof.Machine

section
variable {self : TestId} {s t : State}

/-! ### The entry and the return of a dispatch -/

theorem bodyStep_dispatch (self : TestId) (hp : s.seq.pos = .dispatch) :
    bodyStep self s = beginDispatch self (bodyEntry self) s := by
  rw [bodyStep_shared self (by rw [hp]; rfl)]
  simp only [sharedStep, hp]

theorem bodyStep_ret (self : TestId) {o : TestOutcome} (hp : s.seq.pos = .ret o) :
    bodyStep self s = finishDispatch self o s := by
  rw [bodyStep_shared self (by rw [hp]; rfl)]
  simp only [sharedStep, hp]

theorem ramTickAt_outcome (n : Nat) (s : State) : (ramTickAt n s).seq.outcome = s.seq.outcome := by
  unfold ramTickAt; split_ifs <;> rfl

theorem ramTickAt_mask (n : Nat) (s : State) : (ramTickAt n s).seq.mask = s.seq.mask := by
  unfold ramTickAt; split_ifs <;> rfl

theorem bodyEntry_outcome (self : TestId) (s : State) : (bodyEntry self s).seq.outcome = s.seq.outcome := by
  cases self
  case twoRam => exact ramTickAt_outcome 0 _
  all_goals rfl

/-- A checking body clears `mask` on entry (R155). -/
theorem bodyEntry_mask (hchecking : self.checking = true) (s : State) : (bodyEntry self s).seq.mask = 0 := by
  cases self <;> simp only [TestId.checking, Bool.false_eq_true] at hchecking
  case twoRam => exact ramTickAt_mask 0 _
  all_goals rfl

/-! ### Waiting for a tick and for FCE -/

/-- At a `WaitTick` of its own or of `ShowError` a body's step is that `WaitTick`, and then writes of SEQ's registers. -/
theorem bodyStep_waitTick (howner : ∀ x, s.seq.pos.owner = some x → x = self) (hwaits : s.seq.pos.awaitsTick = true) :
    ∃ go, bodyStep self s = waitTick go s ∧ ∀ t, OnlySeq t (go t) := by
  cases hp : s.seq.pos <;> simp only [SeqPos.awaitsTick, hp, Bool.false_eq_true] at hwaits <;>
    simp only [SeqPos.owner, hp, Option.some.injEq, forall_eq'] at howner
  case showWait o =>
    rw [bodyStep_shared self (by rw [hp]; rfl)]
    simp only [sharedStep, hp, showWaitStep]
    exact ⟨_, rfl, fun t => .ite ⟨_, rfl⟩ ⟨_, rfl⟩⟩
  all_goals subst howner
  case soutWait => exact ⟨_, by simp only [bodyStep, soutBusStep, hp], onlySeq_soutNext⟩
  case plisWait => exact ⟨goto .plisVersion, by simp only [bodyStep, plisStep, hp], fun t => ⟨_, rfl⟩⟩
  case trWait => exact ⟨ramImmediate, by simp only [bodyStep, twoRamStep, hp], fun t => ⟨_, rfl⟩⟩
  case ebWait =>
    exact ⟨fun t => extBusAt (t.seq.k + 1) t, by simp only [bodyStep, extBusStep, hp], fun t => onlySeq_extBusAt _ t⟩

/-- No position waits for both a tick and FCE. -/
theorem awaitsDone_of_awaitsTick {p : SeqPos} (h : p.awaitsTick = true) : p.awaitsDone = false := by
  cases p <;> simp [SeqPos.awaitsTick, SeqPos.awaitsDone] at h ⊢

/-- A `WaitTick` with the flag set clears it, counts one tick and moves SEQ in the same step (R154). -/
theorem waitTick_returns (howner : ∀ x, s.seq.pos.owner = some x → x = self) (hwaits : s.seq.pos.awaitsTick = true)
    (hset : s.cycleFlag = true) :
    (bodyStep self s).cycleFlag = false ∧ (bodyStep self s).ticksConsumed = s.ticksConsumed + 1 ∧
    (bodyStep self s).seq ≠ s.seq := by
  have hmoves : Moves s.seq (bodyStep self s).seq :=
    bodyStep_moves hset howner (by simp [awaitsDone_of_awaitsTick hwaits])
  obtain ⟨go, hstep, hgo⟩ := bodyStep_waitTick howner hwaits
  rw [waitTick_set _ _ hset] at hstep
  obtain ⟨q, hq⟩ := hgo (consumeTick s)
  refine ⟨?_, ?_, hmoves.ne⟩ <;> rw [hstep, hq] <;> rfl

/-- A position that waits for FCE holds SEQ until `done` (R153). -/
theorem framStep_held (hwaits : s.seq.pos.awaitsDone = true) (hdone : s.fce.done = false) : framStep s = s := by
  cases hp : s.seq.pos <;> simp only [SeqPos.awaitsDone, hp, Bool.false_eq_true] at hwaits <;>
    simp only [framStep, hp, whenDone_clear _ _ hdone]

end

/-! ### The default permutation (R161) -/

/-- A table that holds the default `DB_PERM` is the default `DB_PERM`. -/
theorem dbPerm_default {c : Params} (h : c.dbPerm = defaultDbPermTable) (v : Byte) : dbPerm c v = defaultDbPerm v := by
  have hv : v.toNat < 256 := v.isLt
  simp [dbPerm, h, defaultDbPermTable, List.getD_eq_getElem?_getD, hv]

/-- Bit `3 - i` of the default is bit `i` of its argument, and the high nibble is 0. -/
theorem defaultDbPerm_bits (v : Byte) :
    ∀ i < 4, (defaultDbPerm v).getLsbD (3 - i) = v.getLsbD i ∧ (defaultDbPerm v).getLsbD (4 + i) = false := by
  unfold defaultDbPerm
  intro i hi
  interval_cases i <;> cases v.getLsbD 0 <;> cases v.getLsbD 1 <;> cases v.getLsbD 2 <;> cases v.getLsbD 3 <;> decide

/-- A compare under the mask 0x0F compares the low nibble. -/
theorem lowNibble_eq_iff (x y : Byte) : x &&& 0x0F = y &&& 0x0F ↔ ∀ i < 4, x.getLsbD (3 - i) = y.getLsbD (3 - i) := by
  have hmask (j : Nat) (hj : j < 8) : (0x0F : Byte).getLsbD j = decide (j < 4) := by
    interval_cases j <;> rfl
  constructor
  · intro h i hi
    have hbit := congrArg (BitVec.getLsbD · (3 - i)) h
    simp only [BitVec.getLsbD_and, hmask (3 - i) (by omega)] at hbit
    simpa [(by omega : 3 - i < 4)] using hbit
  · intro h
    refine BitVec.eq_of_getLsbD_eq fun j hj => ?_
    rw [BitVec.getLsbD_and, BitVec.getLsbD_and, hmask j hj]
    by_cases hlow : j < 4
    · have := h (3 - j) (by omega)
      rw [(by omega : 3 - (3 - j) = j)] at this
      rw [this]
    · simp [hlow]

/-! ### The obligations -/

/-- Settles O56: the table is the default function, whose low nibble the mask keeps. -/
theorem defaultPermutation : Obligations.DefaultPermutation := by
  unfold Obligations.DefaultPermutation
  refine ⟨rfl, rfl, fun c htable hmask => ?_⟩
  simp only [dbPerm_default htable, dbPairedDiffers, hmask, bne_eq_false_iff_eq, lowNibble_eq_iff]
  refine ⟨defaultDbPerm_bits, by decide, by decide, by decide, by decide, by decide, fun v d => ?_⟩
  exact forall₂_congr fun i hi => by rw [(defaultDbPerm_bits v i hi).1]

/-- Settles O33: each entry is what the return of its body assigns. -/
theorem transitionTable : Obligations.TransitionTable := by
  unfold Obligations.TransitionTable
  have hret (s : State) (self : TestId) (o : TestOutcome) (hp : s.seq.pos = .ret o) :
      exec self.instr s = .next (finishDispatch self o s) := by rw [exec_body, bodyStep_ret self hp]
  intro s row hrow
  suffices hentry : row.2.1 = transition row.1 .noError ∧ row.2.2 = transition row.1 .error by
    rw [hentry.1, hentry.2]
    exact ⟨hret s row.1 .noError, hret s row.1 .error⟩
  simp only [List.mem_cons, List.not_mem_nil, or_false] at hrow
  rcases hrow with rfl | rfl | rfl | rfl | rfl | rfl | rfl <;> exact ⟨rfl, rfl⟩

/-- Settles O34: the entry only clears `outcome` and records the dispatch; the return is the one place of a body that
writes `cur`. -/
theorem curIsWrittenByTheDispatcher : Obligations.CurIsWrittenByTheDispatcher := by
  unfold Obligations.CurIsWrittenByTheDispatcher
  refine ⟨fun self s hp => ?_, fun s t hstep hchanged => ?_⟩
  · obtain ⟨q, hq⟩ := onlySeq_bodyEntry self
      (State.onSeq { s with dispatchTrace := s.dispatchTrace ++ [self.code] } fun q => { q with outcome := .noError })
    refine ⟨_, exec_body self s, ?_⟩
    rw [bodyStep_dispatch self hp, beginDispatch]
    refine ⟨bodyEntry_outcome self _, ?_, bodyEntry_cur self _, ?_, ?_⟩ <;> rw [hq] <;> rfl
  · obtain hsame | ⟨hturn, -⟩ | ⟨hturn, hidle, -, o, -, hp, -⟩ := agentStep_cur hstep
    · exact absurd (by simpa using hsame) hchanged
    · exact .inl hturn
    · exact .inr ⟨hturn, by simpa using hidle, o, by simpa using hp⟩

/-- Settles O35: at a `WaitTick` a body's step is that wait; any other step touches neither the flag nor the count. -/
theorem waitTickTestsAndClears : Obligations.WaitTickTestsAndClears := by
  unfold Obligations.WaitTickTestsAndClears
  refine ⟨fun self s hok hwaits => ?_, fun self s t hwaits hstep => ?_⟩
  · obtain ⟨-, howner, -⟩ := hok
    refine ⟨fun hclear => ?_, fun hset => ⟨_, exec_body self s, waitTick_returns howner hwaits hset⟩⟩
    obtain ⟨go, hstep, -⟩ := bodyStep_waitTick howner hwaits
    rw [exec_body, hstep, waitTick_clear _ _ hclear]
  · cases (exec_body self s).symm.trans hstep
    obtain hsame | ⟨hwaits', -⟩ := (bodyStep_isCall self s).tick
    · exact hsame
    · exact absurd (hwaits.symm.trans hwaits') (by simp)

/-- Settles O36: SEQ's wait is a step that changes nothing, and a busy FCE's turn is a row of the phase table. -/
theorem seqIsHeldUntilDone : Obligations.SeqIsHeldUntilDone := by
  unfold Obligations.SeqIsHeldUntilDone
  refine ⟨fun s hwaits hdone => congrArg _ (framStep_held hwaits hdone), fun s t hbusy hstep => ?_⟩
  obtain ⟨-, hrow⟩ | ⟨hidle, -⟩ := core_cases hstep
  · obtain ⟨e, f, dev, draws, rfl⟩ := hrow.fceOnly
    exact ⟨rfl, rfl, rfl, rfl, rfl, rfl, rfl, rfl, rfl, rfl⟩
  · exact absurd hidle hbusy

/-- Settles O51: no entry of the table is `Error`, and the two of `ExtBus` are `ExtBus`. -/
theorem errorIsNeverDispatched : Obligations.ErrorIsNeverDispatched := by
  unfold Obligations.ErrorIsNeverDispatched
  intro s t _ hstep hturn
  constructor
  · intro hcur
    obtain hsame | ⟨x, hx, hwritten⟩ := step_cur hstep
    · exact hsame ▸ hcur
    · exact hwritten ▸ code_ne_zero hx
  · intro hcur
    obtain hsame | ⟨hreset, -⟩ | ⟨-, -, self, o, hself, -, hret⟩ := agentStep_cur hstep
    · exact (by simpa using hsame : t.seq.cur = s.seq.cur).trans hcur
    · exact absurd hreset hturn
    · obtain rfl : self = .extBus := code_injective (hself.symm.trans ((congrArg Seq.cur (afterTurn_seq s)).trans hcur))
      rw [hret]
      cases o <;> rfl

end Sys2Proof.Machine
end

section
/-! PROOFS. What a body's step writes of SEQ's registers (R33, R155), and what it does to the output bus and to PERIPH
(R31, R58): one lemma for each body over the positions it owns. The frames of 41_sequencer.md and its failure semantics. -/

namespace Sys2Proof.Machine

/-! ### SEQ's registers -/

/-- From `q` to `q'` only registers of the body of `test` are written, and `mask` only gains bits of its row of R105. -/
structure Seq.StepOf (test : TestId) (q q' : Seq) : Prop where
  written : q' = Seq.written test q q'
  flags : ∃ bits, bits &&& ~~~maskBits test = 0 ∧ q'.mask = q.mask ||| bits

/-- SEQ goes on inside the body of `self`, or at its end (R155, R158, R164). -/
def Seq.GoesOn (self : TestId) (q : Seq) : Prop :=
  q.pos.owner = some self ∨ q.pos = if self.checking then afterChecks q.mask else .ret .noError

section
variable {self : TestId} {q q' q'' : Seq} {s t u : State}

theorem Seq.written_refl (self : TestId) (q : Seq) : q = Seq.written self q q := by cases self <;> rfl

theorem Seq.written_trans (h : q' = Seq.written self q q') (h' : q'' = Seq.written self q' q'') :
    q'' = Seq.written self q q'' := by
  rw [h', h]
  cases self <;> rfl

/-- Registers other than `mask` are written. -/
theorem Seq.StepOf.quiet (hwritten : q' = Seq.written self q q') (hmask : q'.mask = q.mask) : Seq.StepOf self q q' :=
  ⟨hwritten, 0, by simp, by simpa using hmask⟩

/-- A check sets only its own bit. -/
theorem Seq.StepOf.flag {bit : Byte} {failed : Bool} (hbit : bit &&& ~~~maskBits self = 0)
    (hwritten : q' = Seq.written self q q') (hmask : q'.mask = if failed then q.mask ||| bit else q.mask) :
    Seq.StepOf self q q' := by
  refine ⟨hwritten, ?_⟩
  cases failed
  · exact ⟨0, by simp, by simpa using hmask⟩
  · exact ⟨bit, hbit, by simpa using hmask⟩

theorem Seq.StepOf.trans (h : Seq.StepOf self q q') (h' : Seq.StepOf self q' q'') : Seq.StepOf self q q'' := by
  obtain ⟨hwritten, bits, hbits, hmask⟩ := h
  obtain ⟨hwritten', bits', hbits', hmask'⟩ := h'
  refine ⟨Seq.written_trans hwritten hwritten', bits ||| bits', ?_, ?_⟩
  · simp [BitVec.and_or_distrib_right, hbits, hbits']
  · rw [hmask', hmask, BitVec.or_assoc]

/-- `t` follows `s` inside the body of `self`: its registers are written, and SEQ goes on in the body or at its end. -/
def BodyWrites (self : TestId) (s t : State) : Prop := Seq.StepOf self s.seq t.seq ∧ t.seq.GoesOn self

theorem BodyWrites.after (h : Seq.StepOf self s.seq u.seq) (h' : BodyWrites self u t) : BodyWrites self s t :=
  ⟨h.trans h'.1, h'.2⟩

/-- Going on at a position of the body. -/
theorem BodyWrites.goto {p : SeqPos} (hown : p.owner = some self) (h : Seq.StepOf self s.seq u.seq) :
    BodyWrites self s (goto p u) :=
  ⟨h.trans (.quiet (by cases self <;> rfl) rfl), .inl hown⟩

/-- The end of a checking body. -/
theorem BodyWrites.endBody (hchecking : self.checking = true) (h : Seq.StepOf self s.seq u.seq) :
    BodyWrites self s (endBody u) :=
  ⟨h.trans (.quiet (by cases self <;> rfl) rfl), .inr (by simp [hchecking, Machine.endBody, afterChecks])⟩

/-- The end of a body without a check. -/
theorem BodyWrites.returns (hchecking : self.checking = false) (h : Seq.StepOf self s.seq u.seq) :
    BodyWrites self s (Machine.goto (.ret .noError) u) :=
  ⟨h.trans (.quiet (by cases self <;> rfl) rfl), .inr (by simp [hchecking])⟩

/-- A step that holds SEQ inside the body. -/
theorem BodyWrites.held (hown : s.seq.pos.owner = some self) : BodyWrites self s s :=
  ⟨.quiet (Seq.written_refl self s.seq) rfl, .inl hown⟩

theorem BodyWrites.waitTick {go : State → State} (hown : s.seq.pos.owner = some self)
    (hgo : BodyWrites self (consumeTick s) (go (consumeTick s))) : BodyWrites self s (waitTick go s) := by
  unfold Machine.waitTick
  split_ifs
  · exact hgo
  · exact .held hown

theorem BodyWrites.whenDone {go : State → State} (hown : s.seq.pos.owner = some self) (hgo : BodyWrites self s (go s)) :
    BodyWrites self s (whenDone go s) := by
  unfold Machine.whenDone
  split_ifs
  · exact hgo
  · exact .held hown

/-! ### The bodies -/

theorem soutBus_writes (hown : s.seq.pos.owner = some .soutBus) : BodyWrites .soutBus s (soutBusStep s) := by
  cases hp : s.seq.pos <;> simp [SeqPos.owner, hp] at hown <;> simp only [soutBusStep, hp]
  case soutSet => exact .goto rfl (.quiet rfl rfl)
  case soutWait =>
    refine .waitTick (by rw [hp]; rfl) ?_
    unfold soutNext
    split_ifs
    · exact .goto rfl (.quiet rfl rfl)
    · exact .goto rfl (.quiet rfl rfl)
    · exact .returns rfl (.quiet rfl rfl)

/-- `ExtBus` at an element of the pattern or at its end. -/
theorem extBusAt_writes (k : Nat) (u : State) : BodyWrites .extBus u (extBusAt k u) := by
  unfold extBusAt
  split_ifs
  · exact .goto rfl (.quiet rfl rfl)
  · exact .returns rfl (.quiet rfl rfl)

theorem extBus_writes (hown : s.seq.pos.owner = some .extBus) : BodyWrites .extBus s (extBusStep s) := by
  cases hp : s.seq.pos <;> simp [SeqPos.owner, hp] at hown <;> simp only [extBusStep, hp]
  case ebDrive => exact .goto rfl (.quiet rfl rfl)
  case ebWait => exact .waitTick (by rw [hp]; rfl) (extBusAt_writes _ _)

theorem plisCheck_stepOf {reg : Handle} {want bit : Byte} (hbit : bit &&& ~~~maskBits .plisRegisters = 0) (s : State) :
    Seq.StepOf .plisRegisters s.seq (plisCheck reg want bit s).seq := by
  rw [plisCheck_seq]
  exact .flag hbit rfl rfl

/-- A loop of `PlisRegisters`: its next iteration or its end. -/
theorem plisAgain_writes {count : Nat} {again : SeqPos} {done : State → State} (hown : again.owner = some .plisRegisters)
    (h : Seq.StepOf .plisRegisters s.seq u.seq) (hdone : BodyWrites .plisRegisters u (done u)) :
    BodyWrites .plisRegisters s (plisAgain count again done u) := by
  unfold plisAgain
  split_ifs
  · exact .goto hown (h.trans (.quiet rfl rfl))
  · exact hdone.after h

theorem plisLoop_writes {p : SeqPos} (hown : p.owner = some .plisRegisters) (u : State) :
    BodyWrites .plisRegisters u (plisLoop p u) := .goto hown (.quiet rfl rfl)

theorem plisRepetitionDone_writes (u : State) : BodyWrites .plisRegisters u (plisRepetitionDone u) := by
  unfold plisRepetitionDone
  split_ifs
  · exact .goto rfl (.quiet rfl rfl)
  · exact .endBody rfl (.quiet rfl rfl)

theorem plis_writes (hown : s.seq.pos.owner = some .plisRegisters) : BodyWrites .plisRegisters s (plisStep s) := by
  cases hp : s.seq.pos <;> simp [SeqPos.owner, hp] at hown <;> simp only [plisStep, hp]
  case plisWait => exact .waitTick (by rw [hp]; rfl) (.goto rfl (.quiet rfl rfl))
  case plisVersion => exact (plisLoop_writes rfl _).after (plisCheck_stepOf (by decide) s)
  case plisExtWrite | plisInitWrite => exact .goto rfl (.quiet rfl rfl)
  case plisExtRead | plisInitRead => exact plisAgain_writes rfl (plisCheck_stepOf (by decide) s) (plisLoop_writes rfl _)
  case plisAliasWrite => exact plisAgain_writes rfl (.quiet rfl rfl) (plisLoop_writes rfl _)
  case plisAliasRead =>
    exact plisAgain_writes rfl (plisCheck_stepOf (by decide) s) (plisRepetitionDone_writes _)

theorem dbCheckWritten_seq (s : State) :
    (dbCheckWritten s).seq =
      { s.seq with
        r := periphAnswer s.cfg.dbWrReg s
        mask := if periphAnswer s.cfg.dbWrReg s != s.seq.v then s.seq.mask ||| 0x01 else s.seq.mask } := by
  simp [dbCheckWritten]

theorem dbCheckPaired_seq (s : State) :
    (dbCheckPaired s).seq =
      { s.seq with
        q := periphAnswer s.cfg.dbRdReg s
        mask := if dbPairedDiffers s.cfg.toParams s.seq.v (periphAnswer s.cfg.dbRdReg s) then s.seq.mask ||| 0x02
          else s.seq.mask } := by
  simp [dbCheckPaired]

theorem dataBus_writes (hown : s.seq.pos.owner = some .dataBus) : BodyWrites .dataBus s (dataBusStep s) := by
  cases hp : s.seq.pos <;> simp [SeqPos.owner, hp] at hown <;> simp only [dataBusStep, hp]
  case dbReadBack =>
    refine .goto rfl ?_
    rw [dbCheckWritten_seq]
    exact .flag (bit := 0x01) (by decide) rfl rfl
  case dbReadPaired =>
    refine .goto rfl ?_
    rw [dbCheckPaired_seq]
    exact .flag (bit := 0x02) (by decide) rfl rfl
  case dbWdt =>
    unfold dbNext
    split_ifs <;> exact .goto rfl (.quiet rfl rfl)
  case dbDisable => exact .endBody rfl (.quiet rfl rfl)
  case dbEnable | dbWrite | dbSettle => exact .goto rfl (.quiet rfl rfl)

theorem ramCheck_stepOf {want bit : Byte} (hbit : bit &&& ~~~maskBits .twoRam = 0) (s : State) :
    Seq.StepOf .twoRam s.seq (ramCheck want bit s).seq := by
  rw [ramCheck_seq]
  exact .flag hbit rfl rfl

theorem ramLoop_writes {p done : SeqPos} (hown : p.owner = some .twoRam) (hdone : done.owner = some .twoRam)
    (h : Seq.StepOf .twoRam s.seq u.seq) : BodyWrites .twoRam s (ramLoop p done u) :=
  .goto (by split_ifs <;> assumption) (h.trans (.quiet rfl rfl))

/-- A loop over the RAM region: its next offset or its end. -/
theorem ramAgain_writes {again : SeqPos} {done : State → State} (hown : again.owner = some .twoRam)
    (h : Seq.StepOf .twoRam s.seq u.seq) (hdone : BodyWrites .twoRam u (done u)) :
    BodyWrites .twoRam s (ramAgain again done u) := by
  unfold ramAgain
  split_ifs
  · exact .goto hown (h.trans (.quiet rfl rfl))
  · exact hdone.after h

theorem ramTickAt_writes (n : Nat) (u : State) : BodyWrites .twoRam u (ramTickAt n u) := by
  unfold ramTickAt
  split_ifs
  · exact .goto rfl (.quiet rfl rfl)
  · exact .endBody rfl (.quiet rfl rfl)

theorem twoRam_writes (hown : s.seq.pos.owner = some .twoRam) : BodyWrites .twoRam s (twoRamStep s) := by
  cases hp : s.seq.pos <;> simp [SeqPos.owner, hp] at hown <;> simp only [twoRamStep, hp]
  case trWait => exact .waitTick (by rw [hp]; rfl) (ramLoop_writes rfl rfl (.quiet rfl rfl))
  case trImmWrite => exact .goto rfl (.quiet rfl rfl)
  case trImmRead =>
    exact ramAgain_writes rfl (ramCheck_stepOf (by decide) s) (.goto rfl (.quiet rfl rfl))
  case trImmWdt => exact ramLoop_writes rfl rfl (.quiet rfl rfl)
  case trDelWrite => exact ramAgain_writes rfl (.quiet rfl rfl) (ramLoop_writes rfl rfl (.quiet rfl rfl))
  case trDelRead =>
    exact ramAgain_writes rfl ((ramCheck_stepOf (by decide) s).trans (.quiet rfl rfl)) (.goto rfl (.quiet rfl rfl))
  case trDelWdt => exact (ramTickAt_writes _ _).after (u := wdtTouch s) (.quiet rfl rfl)

theorem framAbortIf_stepOf {failed : Bool} {bit : Byte} (hbit : bit &&& ~~~maskBits .fram = 0) (s : State) :
    Seq.StepOf .fram s.seq (framAbortIf failed bit s).seq := .flag (failed := failed) hbit rfl rfl

theorem framWriteBlock_writes (b : Nat) (u : State) : BodyWrites .fram u (framWriteBlock b u) :=
  .goto (by split_ifs <;> rfl) (.quiet rfl rfl)

theorem framVerifyBlock_writes (b : Nat) (u : State) : BodyWrites .fram u (framVerifyBlock b u) := by
  unfold framVerifyBlock
  split <;> exact .goto rfl (.quiet rfl rfl)

theorem framErased_writes (u : State) : BodyWrites .fram u (framErased u) := by
  unfold framErased
  split_ifs
  · exact .goto rfl (.quiet rfl rfl)
  · exact framWriteBlock_writes 0 u

theorem framIdentified_writes (u : State) : BodyWrites .fram u (framIdentified u) := by
  unfold framIdentified
  split_ifs
  · exact .goto rfl (.quiet rfl rfl)
  · exact .goto rfl (.flag (bit := 0x08) (failed := true) (by decide) rfl rfl)

theorem framProgrammed_writes (u : State) : BodyWrites .fram u (framProgrammed u) :=
  .goto (by split_ifs <;> rfl) (framAbortIf_stepOf (by decide) u)

theorem framWritten_writes (u : State) : BodyWrites .fram u (framWritten u) := by
  unfold framWritten
  split_ifs <;> exact .goto rfl (.quiet rfl rfl)

theorem framBatchDone_writes (u : State) : BodyWrites .fram u (framBatchDone u) := by
  unfold framBatchDone
  split_ifs
  · exact framWriteBlock_writes _ u
  · exact framVerifyBlock_writes 0 u

theorem framVerified_writes (u : State) : BodyWrites .fram u (framVerified u) := by
  unfold framVerified
  split_ifs
  · exact .goto rfl (.quiet rfl rfl)
  · exact framVerifyBlock_writes _ u

/-- A request leaves SEQ where it went on to. -/
theorem BodyWrites.request (hu : BodyWrites self s u) (hseq : t.seq = u.seq) : BodyWrites self s t := by
  unfold BodyWrites at hu ⊢
  rwa [hseq]

theorem fram_writes (hown : s.seq.pos.owner = some .fram) : BodyWrites .fram s (framStep s) := by
  have hgoto (p : SeqPos) (hp : p.owner = some .fram) : BodyWrites .fram s (goto p s) := .goto hp (.quiet rfl rfl)
  have hnext (p : SeqPos) (hp : p.owner = some .fram) : BodyWrites .fram s (goto p (stepG s)) := .goto hp (.quiet rfl rfl)
  cases hp : s.seq.pos <;> simp [SeqPos.owner, hp] at hown <;> simp only [framStep, hp]
  case frEnable => exact .goto rfl (.quiet rfl rfl)
  case frIdentify => exact (hgoto .frIdentifyDone rfl).request (acceptIdentify_seq _ _)
  case frErase => exact (hgoto .frEraseDone rfl).request (acceptEraseBlock_seq _ _)
  case frProgram => exact (hnext .frProgramDone rfl).request (acceptProgramByte_seq _ _)
  case frRead => exact (hgoto .frReadDone rfl).request (acceptRead_seq _ _)
  case frVerify => exact (hnext .frVerifyDone rfl).request (acceptRead_seq _ _)
  case frBatchReset => exact (hgoto .frBatchResetDone rfl).request (acceptReset_seq _ _)
  case frIdentifyDone => exact .whenDone (by rw [hp]; rfl) (framIdentified_writes s)
  case frEraseDone =>
    exact .whenDone (by rw [hp]; rfl) (.goto rfl (.flag (bit := 0x01) (failed := s.fce.result != .ok) (by decide) rfl rfl))
  case frProgramDone => exact .whenDone (by rw [hp]; rfl) (framProgrammed_writes s)
  case frReadDone | frVerifyDone =>
    exact .whenDone (by rw [hp]; rfl) (.goto rfl (framAbortIf_stepOf (by decide) s))
  case frBatchResetDone => exact .whenDone (by rw [hp]; rfl) (framBatchDone_writes s)
  case frEraseWdt => exact (framErased_writes _).after (u := wdtTouch s) (.quiet rfl rfl)
  case frWriteWdt => exact (framWritten_writes _).after (u := wdtTouch s) (.quiet rfl rfl)
  case frVerifyWdt => exact (framVerified_writes _).after (u := wdtTouch s) (.quiet rfl rfl)
  case frDisable => exact .endBody rfl (.quiet rfl rfl)

/-- A step inside a body writes registers of that body only, sets flags of that body only, and goes on in it or at its end. -/
theorem bodyStep_writes (hown : s.seq.pos.owner = some self) : BodyWrites self s (bodyStep self s) := by
  cases self
  case error => cases hp : s.seq.pos <;> simp [SeqPos.owner, hp] at hown
  case soutBus => exact soutBus_writes hown
  case plisRegisters => exact plis_writes hown
  case dataBus => exact dataBus_writes hown
  case fram => exact fram_writes hown
  case twoRam => exact twoRam_writes hown
  case extBus => exact extBus_writes hown

/-- The entry of a body, after `outcome` is cleared, writes registers of that body only. -/
theorem bodyEntry_written (self : TestId) (s : State) :
    (bodyEntry self s).seq = Seq.written self s.seq (bodyEntry self s).seq := by
  cases self
  case twoRam => exact Seq.written_trans (q' := (clearMask s).seq) rfl (ramTickAt_writes 0 (clearMask s)).1.written
  all_goals rfl

/-- A step of any body, in any state, writes only what its rule does (R33). -/
theorem bodyStep_written (self : TestId) (s : State) :
    (bodyStep self s).seq = Seq.written self s.seq (bodyStep self s).seq := by
  by_cases hown : s.seq.pos.owner = some self
  · exact (bodyStep_writes hown).1.written
  · rw [bodyStep_foreign hown]
    unfold sharedStep
    split
    case h_1 => cases self <;> rfl
    case h_2 =>
      unfold showWaitStep waitTick
      dsimp only
      split_ifs <;> cases self <;> rfl
    case h_3 => cases self <;> rfl
    case h_4 => exact Seq.written_trans (by cases self <;> rfl) (bodyEntry_written self _)

end

end Sys2Proof.Machine
end

section
/-! PROOFS. What a body's step does to the output bus and to PERIPH (R31, R58), body by body; the frames of a body's step and
the failure semantics (R155). -/

namespace Sys2Proof.Machine

/-- The output bus of `s`. -/
def SameOut (s t : State) : Prop := t.out = s.out ∧ t.outTrace = s.outTrace

/-- What a step of test `test` does to the output bus and to PERIPH: an `OutSet`, the store its position computes, the load
its position computes, or nothing. -/
inductive EnvStep (test : TestId) (s t : State) : Prop where
  | outSet (hpos : s.seq.pos = .soutSet ∨ ∃ o, s.seq.pos = .showSet o) (hperiph : t.periph = s.periph)
  | store (a : Nat) (d : Byte) (h : periphStore s = some (a, d)) (hout : SameOut s t)
      (hperiph : t.periph = s.periph.store a d)
  | load (a : Nat) (e : PeriphEvent) (h : periphLoad s (periphAnswer a s) = some (a, e)) (hout : SameOut s t)
      (hperiph : t.periph = (periphAfterLoad s).periph) (htrace : t.periphTrace = s.periphTrace ++ [e])
  | quiet (hnone : s.seq.pos.owner = some test → periphStore s = none ∧ ∀ d, periphLoad s d = none) (hout : SameOut s t)
      (hperiph : t.periph = s.periph)

section
variable {self : TestId} {s t u : State}

theorem EnvStep.of_store {a : Nat} {d : Byte} {e : PeriphEvent} (h : periphStore s = some (a, d))
    (hseq : OnlySeq (State.logPeriph { s with periph := s.periph.store a d } e) t) : EnvStep self s t := by
  obtain ⟨q, rfl⟩ := hseq
  exact .store a d h ⟨rfl, rfl⟩ rfl

theorem EnvStep.of_load {a : Nat} {e : PeriphEvent} (h : periphLoad s (periphAnswer a s) = some (a, e))
    (hseq : OnlySeq ((periphAfterLoad s).logPeriph e) t) : EnvStep self s t := by
  obtain ⟨q, rfl⟩ := hseq
  exact .load a e h ⟨by simp, by simp⟩ (by simp) (by simp)

/-- A step that accesses neither, then writes of SEQ's registers. -/
theorem EnvStep.of_quiet (hnone : periphStore s = none ∧ ∀ d, periphLoad s d = none) (hout : SameOut s u)
    (hperiph : u.periph = s.periph) (hseq : OnlySeq u t) : EnvStep self s t := by
  obtain ⟨q, rfl⟩ := hseq
  exact .quiet (fun _ => hnone) hout hperiph

theorem EnvStep.of_waitTick {go : State → State} (hnone : periphStore s = none ∧ ∀ d, periphLoad s d = none)
    (hgo : OnlySeq (consumeTick s) (go (consumeTick s))) : EnvStep self s (waitTick go s) := by
  unfold waitTick
  split_ifs
  · exact .of_quiet hnone (u := consumeTick s) ⟨rfl, rfl⟩ rfl hgo
  · exact .of_quiet hnone ⟨rfl, rfl⟩ rfl (.refl s)

/-- A request presented after writes of SEQ's registers. -/
theorem EnvStep.of_request {op : Byte} {o : Operands} (hnone : periphStore s = none ∧ ∀ d, periphLoad s d = none)
    (hseq : OnlySeq s u) (h : exec (decodeReq op o) u = .next t) : EnvStep self s t := by
  obtain ⟨q, rfl⟩ := hseq
  rw [request_eq] at h
  cases h
  split_ifs <;> exact .quiet (fun _ => hnone) ⟨rfl, rfl⟩ rfl

/-! ### The bodies -/

theorem sharedStep_env (hown : s.seq.pos.owner ≠ some self) : EnvStep self s (sharedStep self (bodyEntry self) s) := by
  have hquiet {t : State} (hout : SameOut s t) (hperiph : t.periph = s.periph) : EnvStep self s t :=
    .quiet (fun h => absurd h hown) hout hperiph
  unfold sharedStep
  split
  case h_1 o hp => exact .outSet (.inr ⟨o, hp⟩) rfl
  case h_2 =>
    unfold showWaitStep waitTick
    dsimp only
    split_ifs <;> exact hquiet ⟨rfl, rfl⟩ rfl
  case h_3 => exact hquiet ⟨rfl, rfl⟩ rfl
  case h_4 =>
    obtain ⟨q, hq⟩ := onlySeq_bodyEntry self
      (State.onSeq { s with dispatchTrace := s.dispatchTrace ++ [self.code] } fun q => { q with outcome := .noError })
    rw [beginDispatch, hq]
    exact hquiet ⟨rfl, rfl⟩ rfl

theorem soutBus_env (hown : s.seq.pos.owner = some .soutBus) : EnvStep .soutBus s (soutBusStep s) := by
  cases hp : s.seq.pos <;> simp [SeqPos.owner, hp] at hown <;> simp only [soutBusStep, hp]
  case soutSet => exact .outSet (.inl hp) rfl
  case soutWait => exact .of_waitTick (by simp [periphStore, periphLoad, hp]) (onlySeq_soutNext _)

theorem extBus_env (hown : s.seq.pos.owner = some .extBus) : EnvStep .extBus s (extBusStep s) := by
  cases hp : s.seq.pos <;> simp [SeqPos.owner, hp] at hown <;> simp only [extBusStep, hp] <;>
    have hnone : periphStore s = none ∧ ∀ d, periphLoad s d = none := by simp [periphStore, periphLoad, hp]
  case ebDrive => exact .of_quiet hnone (u := extBusDrive _ s) ⟨rfl, rfl⟩ rfl ⟨_, rfl⟩
  case ebWait => exact .of_waitTick hnone (onlySeq_extBusAt _ _)

/-- A check of `PlisRegisters` is the load of its register, then writes of SEQ's registers. -/
theorem onlySeq_plisCheck (h : Handle) (want bit : Byte) (s : State) :
    OnlySeq ((periphAfterLoad s).logPeriph (.read h (periphAnswer h s))) (plisCheck h want bit s) := ⟨_, rfl⟩

theorem plis_env (hown : s.seq.pos.owner = some .plisRegisters) : EnvStep .plisRegisters s (plisStep s) := by
  cases hp : s.seq.pos <;> simp [SeqPos.owner, hp] at hown <;> simp only [plisStep, hp]
  case plisWait => exact .of_waitTick (by simp [periphStore, periphLoad, hp]) ⟨_, rfl⟩
  case plisVersion =>
    exact .of_load (by simp only [periphLoad, hp]; rfl) ((onlySeq_plisCheck _ _ _ s).trans (onlySeq_plisLoop _ _))
  case plisExtWrite | plisInitWrite => exact .of_store (by simp only [periphStore, hp]) ⟨_, rfl⟩
  case plisExtRead | plisInitRead =>
    exact .of_load (by simp only [periphLoad, hp]; rfl)
      ((onlySeq_plisCheck _ _ _ s).trans (onlySeq_plisAgain (onlySeq_plisLoop _ _)))
  case plisAliasWrite => exact .of_store (by simp only [periphStore, hp]) (onlySeq_plisAgain (onlySeq_plisLoop _ _))
  case plisAliasRead =>
    exact .of_load (by simp only [periphLoad, hp]; rfl)
      ((onlySeq_plisCheck _ _ _ s).trans (onlySeq_plisAgain (onlySeq_plisRepetitionDone _)))

theorem dataBus_env (hown : s.seq.pos.owner = some .dataBus) : EnvStep .dataBus s (dataBusStep s) := by
  cases hp : s.seq.pos <;> simp [SeqPos.owner, hp] at hown <;> simp only [dataBusStep, hp]
  case dbWrite => exact .of_store (by simp only [periphStore, hp]) ⟨_, rfl⟩
  case dbReadBack | dbReadPaired => exact .of_load (by simp only [periphLoad, hp]; rfl) ⟨_, rfl⟩
  case dbEnable =>
    exact .of_quiet (by simp [periphStore, periphLoad, hp]) (u := extAccess true s) ⟨rfl, rfl⟩ rfl ⟨_, rfl⟩
  case dbSettle => exact .of_quiet (by simp [periphStore, periphLoad, hp]) (u := s) ⟨rfl, rfl⟩ rfl ⟨_, rfl⟩
  case dbWdt =>
    exact .of_quiet (by simp [periphStore, periphLoad, hp]) (u := wdtTouch s) ⟨rfl, rfl⟩ rfl (onlySeq_dbNext _)
  case dbDisable =>
    exact .of_quiet (by simp [periphStore, periphLoad, hp]) (u := extAccess false s) ⟨rfl, rfl⟩ rfl (onlySeq_endBody _)

/-- A check of `TwoRam` is the load of its offset, then writes of SEQ's registers. -/
theorem onlySeq_ramCheck (want bit : Byte) (s : State) :
    OnlySeq ((periphAfterLoad s).logPeriph (.ramRead s.seq.k (ramAnswer s.seq.k s))) (ramCheck want bit s) := ⟨_, rfl⟩

theorem twoRam_env (hown : s.seq.pos.owner = some .twoRam) : EnvStep .twoRam s (twoRamStep s) := by
  cases hp : s.seq.pos <;> simp [SeqPos.owner, hp] at hown <;> simp only [twoRamStep, hp]
  case trWait => exact .of_waitTick (by simp [periphStore, periphLoad, hp]) ⟨_, rfl⟩
  case trImmWrite => exact .of_store (by simp only [periphStore, hp]; rfl) ⟨_, rfl⟩
  case trDelWrite =>
    exact .of_store (by simp only [periphStore, hp]; rfl)
      (OnlySeq.trans (t := ramWriteNext s) ⟨_, rfl⟩ (onlySeq_ramAgain ⟨_, rfl⟩))
  case trImmRead =>
    exact .of_load (by simp only [periphLoad, hp]; rfl)
      ((onlySeq_ramCheck _ _ s).trans (onlySeq_ramAgain ⟨_, rfl⟩))
  case trDelRead =>
    exact .of_load (by simp only [periphLoad, hp]; rfl)
      ((onlySeq_ramCheck _ _ s).trans (OnlySeq.trans (t := stepG (ramCheck _ _ s)) ⟨_, rfl⟩ (onlySeq_ramAgain ⟨_, rfl⟩)))
  case trImmWdt =>
    exact .of_quiet (by simp [periphStore, periphLoad, hp]) (u := wdtTouch s) ⟨rfl, rfl⟩ rfl ⟨_, rfl⟩
  case trDelWdt =>
    exact .of_quiet (by simp [periphStore, periphLoad, hp]) (u := wdtTouch s) ⟨rfl, rfl⟩ rfl (onlySeq_ramTickAt _ _)

theorem fram_env (hown : s.seq.pos.owner = some .fram) : EnvStep .fram s (framStep s) := by
  have hnone : periphStore s = none ∧ ∀ d, periphLoad s d = none := by
    cases hp : s.seq.pos <;> simp [SeqPos.owner, hp] at hown <;> simp [periphStore, periphLoad, hp]
  cases hp : s.seq.pos <;> simp [SeqPos.owner, hp] at hown <;> simp only [framStep, hp]
  case frEnable => exact .of_quiet hnone (u := flashWindow true s) ⟨rfl, rfl⟩ rfl ⟨_, rfl⟩
  case frDisable => exact .of_quiet hnone (u := flashWindow false s) ⟨rfl, rfl⟩ rfl (onlySeq_endBody _)
  case frIdentify => exact .of_request (op := 0x01) hnone ⟨_, rfl⟩ rfl
  case frErase => exact .of_request (op := 0x02) hnone ⟨_, rfl⟩ rfl
  case frProgram => exact .of_request (op := 0x03) hnone ⟨_, rfl⟩ rfl
  case frRead | frVerify => exact .of_request (op := 0x05) hnone ⟨_, rfl⟩ rfl
  case frBatchReset => exact .of_request (op := 0x06) hnone ⟨_, rfl⟩ rfl
  case frIdentifyDone => exact .of_quiet hnone ⟨rfl, rfl⟩ rfl (onlySeq_whenDone (onlySeq_framIdentified s))
  case frEraseDone | frProgramDone | frReadDone | frVerifyDone =>
    exact .of_quiet hnone ⟨rfl, rfl⟩ rfl (onlySeq_whenDone ⟨_, rfl⟩)
  case frBatchResetDone => exact .of_quiet hnone ⟨rfl, rfl⟩ rfl (onlySeq_whenDone (onlySeq_framBatchDone s))
  case frEraseWdt => exact .of_quiet hnone (u := wdtTouch s) ⟨rfl, rfl⟩ rfl (onlySeq_framErased _)
  case frWriteWdt => exact .of_quiet hnone (u := wdtTouch s) ⟨rfl, rfl⟩ rfl (onlySeq_framWritten _)
  case frVerifyWdt => exact .of_quiet hnone (u := wdtTouch s) ⟨rfl, rfl⟩ rfl (onlySeq_framVerified _)

/-- What a step of any body, in any state, does to the output bus and to PERIPH. -/
theorem bodyStep_env (self : TestId) (s : State) : EnvStep self s (bodyStep self s) := by
  by_cases hown : s.seq.pos.owner = some self
  · cases self
    case error => cases hp : s.seq.pos <;> simp [SeqPos.owner, hp] at hown
    case soutBus => exact soutBus_env hown
    case plisRegisters => exact plis_env hown
    case dataBus => exact dataBus_env hown
    case fram => exact fram_env hown
    case twoRam => exact twoRam_env hown
    case extBus => exact extBus_env hown
  · exact bodyStep_foreign hown ▸ sharedStep_env hown

/-! ### The frame of a step -/

/-- A cell the step does not store to reads as before. -/
theorem EnvStep.cellByte {a : Nat} (h : EnvStep self s t) (hother : ∀ d, periphStore s ≠ some (a, d)) :
    cellByte t a = cellByte s a := by
  cases h with
  | outSet _ hperiph | quiet _ _ hperiph => rw [Machine.cellByte, hperiph]; rfl
  | store b d hstore _ hperiph =>
    have hne : a ≠ b := fun hab => hother d (hab ▸ hstore)
    rw [Machine.cellByte, Machine.cellByte, hperiph]
    cases hp : s.periph with
    | oracle answers => rfl
    | cells m => exact congrArg some (Memory.read_write_other _ _ _ _ hne)
  | load b e _ _ hperiph _ =>
    rw [Machine.cellByte, Machine.cellByte, hperiph]
    unfold periphAfterLoad
    cases hp : s.periph with
    | oracle answers => cases answers <;> simp [hp]
    | cells m => simp [hp]

theorem EnvStep.sameOut (h : EnvStep self s t) (hsout : s.seq.pos ≠ .soutSet) (hshow : ∀ o, s.seq.pos ≠ .showSet o) :
    SameOut s t := by
  cases h with
  | outSet hpos _ =>
    obtain hp | ⟨o, hp⟩ := hpos
    · exact absurd hp hsout
    · exact absurd hp (hshow o)
  | store _ _ _ hout _ | load _ _ _ hout _ _ | quiet _ hout _ => exact hout

/-- No step of a body touches DEV, the schedule or what a requester will present. -/
theorem IsCall.inputs (h : IsCall s t) : t.dev = s.dev ∧ t.agenda = s.agenda ∧ t.bench = s.bench := by
  obtain ⟨u, hcall, q, rfl⟩ := h
  cases hcall <;> simp

/-- The enables change only at their own primitives. -/
theorem ControlStep.enables (h : ControlStep self s t) :
    (s.seq.pos ≠ .frEnable → s.seq.pos ≠ .frDisable → t.winEn = s.winEn) ∧
    (s.seq.pos ≠ .dbEnable → s.seq.pos ≠ .dbDisable → t.extEn = s.extEn) := by
  cases h with
  | quiet h => exact ⟨fun _ _ => h.winEn, fun _ _ => h.extEn⟩
  | window _ hpos _ hext => exact ⟨fun h h' => absurd hpos (by simp [h, h']), fun _ _ => hext⟩
  | access _ hpos _ hwin => exact ⟨fun _ _ => hwin, fun h h' => absurd hpos (by simp [h, h'])⟩
  | request _ hwin hext => exact ⟨fun _ _ => hwin, fun _ _ => hext⟩

/-- Only `Fram` presents requests. -/
theorem bodyStep_fce (hself : self ≠ .fram) (s : State) : (bodyStep self s).fce = s.fce := by
  cases bodyStep_controls self s with
  | quiet h => exact h.fce
  | window _ _ hfce _ | access _ _ hfce _ => exact hfce
  | request hopen _ _ =>
    have hown : s.seq.pos.owner = some .fram := by
      simp only [SeqPos.windowOpen, Bool.and_eq_true, beq_iff_eq] at hopen
      exact hopen.1
    have hforeign : s.seq.pos.owner ≠ some self := fun h => hself (Option.some.inj (h.symm.trans hown))
    rw [bodyStep_foreign hforeign]
    exact (sharedStep_sameControls self s).fce

/-! ### Stores and loads of PERIPH (R58) -/

/-- No position both stores and loads. -/
theorem periphLoad_of_store {x : Nat × Byte} (h : periphStore s = some x) (d : Byte) : periphLoad s d = none := by
  cases hp : s.seq.pos <;> simp [periphStore, hp] at h <;> simp [periphLoad, hp]

/-- The cell a position loads from does not depend on the answer. -/
theorem periphLoad_cell {d d' : Byte} {x x' : Nat × PeriphEvent} (h : periphLoad s d = some x)
    (h' : periphLoad s d' = some x') : x.1 = x'.1 := by
  cases hp : s.seq.pos <;> simp only [periphLoad, hp, reduceCtorEq, Option.some.injEq] at h h' <;> subst h h' <;> rfl

/-- At the positions of an `OutSet` there is no access to PERIPH. -/
theorem noAccess_of_outSet (hpos : s.seq.pos = .soutSet ∨ ∃ o, s.seq.pos = .showSet o) :
    periphStore s = none ∧ ∀ d, periphLoad s d = none := by
  obtain hp | ⟨o, hp⟩ := hpos <;> simp [periphStore, periphLoad, hp]

/-- A body at a store makes it. -/
theorem EnvStep.stores (h : EnvStep self s t) (hown : s.seq.pos.owner = some self) {a : Nat} {d : Byte}
    (hstore : periphStore s = some (a, d)) : t.periph = s.periph.store a d := by
  cases h with
  | outSet hpos _ => simp [(noAccess_of_outSet hpos).1] at hstore
  | store a' d' h' _ hperiph =>
    obtain ⟨rfl, rfl⟩ : a' = a ∧ d' = d := by simpa using h'.symm.trans hstore
    exact hperiph
  | load a' e h' _ _ _ => simp [periphLoad_of_store hstore] at h'
  | quiet hnone _ _ => simp [(hnone hown).1] at hstore

/-- A body at a load makes it, with PERIPH's answer. -/
theorem EnvStep.loads (h : EnvStep self s t) (hown : s.seq.pos.owner = some self) {a : Nat} {e : PeriphEvent}
    (hload : periphLoad s (periphAnswer a s) = some (a, e)) :
    t.periph = (periphAfterLoad s).periph ∧ t.periphTrace = s.periphTrace ++ [e] := by
  cases h with
  | outSet hpos _ => simp [(noAccess_of_outSet hpos).2] at hload
  | store a' d' h' _ _ => simp [periphLoad_of_store h'] at hload
  | load a' e' h' _ hperiph htrace =>
    obtain rfl : a' = a := periphLoad_cell h' hload
    obtain rfl : e' = e := by simpa using h'.symm.trans hload
    exact ⟨hperiph, htrace⟩
  | quiet hnone _ _ => simp [(hnone hown).2] at hload

/-! ### The end of a body (R155) -/

/-- The positions bodies share: each leaves `mask` alone but the entry, `ShowError` returns what it announced, and only the
return goes to the next dispatch. -/
theorem shared_end (hown : s.seq.pos.owner = none) (hp : s.seq.pos ≠ .dispatch) :
    (bodyStep self s).seq.mask = s.seq.mask ∧
    ((∃ o, (s.seq.pos = .showSet o ∨ s.seq.pos = .showWait o) ∧
        ((bodyStep self s).seq.pos = .showWait o ∨ (bodyStep self s).seq.pos = .ret o)) ∨
      ∃ o, s.seq.pos = .ret o ∧ (bodyStep self s).seq.pos = .dispatch ∧ (bodyStep self s).seq.outcome = o) := by
  rw [bodyStep_shared self hown]
  cases hpos : s.seq.pos <;> simp only [SeqPos.owner, hpos, reduceCtorEq] at hown <;> simp only [sharedStep, hpos]
  case dispatch => exact absurd hpos hp
  case showSet o =>
    refine ⟨rfl, .inl ⟨o, .inl rfl, ?_⟩⟩
    rw [showSetStep_eq]
    split_ifs
    · exact .inr rfl
    · exact .inl rfl
  case showWait o =>
    unfold showWaitStep waitTick
    dsimp only
    split_ifs
    · exact ⟨rfl, .inl ⟨o, .inr rfl, .inl hpos⟩⟩
    · exact ⟨rfl, .inl ⟨o, .inr rfl, .inr rfl⟩⟩
    · exact ⟨rfl, .inl ⟨o, .inr rfl, .inl hpos⟩⟩
  case ret o => exact ⟨rfl, .inr ⟨o, rfl, rfl, rfl⟩⟩

/-- The positions a checking body goes on to from inside: its own, or those its mask decides. -/
theorem Seq.GoesOn.ends {q : Seq} (h : q.GoesOn self) (hchecking : self.checking = true) :
    (∀ o, q.pos = .showSet o → o = .error ∧ q.mask ≠ 0) ∧ (q.pos = .ret .noError → q.mask = 0) ∧
    q.pos ≠ .ret .error ∧ q.pos ≠ .dispatch := by
  obtain hown | hend := h
  · cases hp : q.pos <;> simp [SeqPos.owner, hp] at hown <;> simp
  · rw [hend, if_pos hchecking, afterChecks]
    split_ifs with hmask
    · exact ⟨fun o h => by cases h; exact ⟨rfl, hmask⟩, nofun, nofun, nofun⟩
    · exact ⟨nofun, fun _ => not_not.mp hmask, nofun, nofun⟩

/-- No body goes to a dispatch from inside. -/
theorem Seq.GoesOn.not_dispatch {q : Seq} (h : q.GoesOn self) : q.pos ≠ .dispatch := by
  intro hp
  simp only [Seq.GoesOn, hp, SeqPos.owner, reduceCtorEq, false_or, afterChecks] at h
  split_ifs at h

end

/-! ### The obligations -/

/-- Settles O38: at most one primitive call, the one of the position SEQ stands at, and writes of SEQ's registers. -/
theorem bodyStepFrame : Obligations.BodyStepFrame := by
  unfold Obligations.BodyStepFrame
  intro self s t hstep
  cases (exec_body self s).symm.trans hstep
  have hcall := bodyStep_isCall self s
  have henv := bodyStep_env self s
  obtain ⟨hdev, hagenda, hbench⟩ := hcall.inputs
  obtain ⟨hbuf, hid⟩ := hcall.buf_idValid
  obtain ⟨hwin, hext⟩ := (bodyStep_controls self s).enables
  exact ⟨hcall.cfg, hcall.busTrace, hdev, hagenda, hbench, fun a => by rw [bufByte, hbuf]; rfl,
    fun a => by rw [arrayByte, hdev]; rfl, fun _ => henv.cellByte, henv.sameOut, hwin, hext,
    fun hself => bodyStep_fce hself s, hid, bodyStep_written self s⟩

/-- Settles O39: a body at a store or a load makes the one its position computes. -/
theorem periphStoreLands : Obligations.PeriphStoreLands := by
  unfold Obligations.PeriphStoreLands
  intro self s m hown hcells
  have henv := bodyStep_env self s
  refine ⟨fun a d hstore => ⟨_, exec_body self s, ?_⟩, fun a => ?_⟩
  · have hperiph := henv.stores hown hstore
    rw [hcells, Periph.store] at hperiph
    simp only [cellByte, hperiph, hcells, Option.some.injEq]
    exact ⟨Memory.read_write_same _ _ _, fun x hx => Memory.read_write_other _ _ _ _ hx⟩
  · have hanswer : periphAnswer a s =
        if a = s.cfg.dbRdReg then dbPerm s.cfg.toParams (m.read s.cfg.dbWrReg) else m.read a := by
      simp only [periphAnswer, hcells]
    intro d e hload
    obtain ⟨hperiph, htrace⟩ := henv.loads hown (by rw [hanswer]; exact hload)
    exact ⟨_, exec_body self s, hperiph.trans ((periphAfterLoad_cells s).1 m hcells), htrace⟩

/-- Settles O48: inside a body a step sets only the body's own flags and leaves it as `mask` decides; after it `ShowError`
and the return hand on what was announced. -/
theorem outcomeIsTheMask : Obligations.OutcomeIsTheMask := by
  unfold Obligations.OutcomeIsTheMask
  refine ⟨fun self s hchecking hp => ⟨_, exec_body self s, ?_⟩, fun self s t hok hp hstep => ?_⟩
  · rw [bodyStep_dispatch self hp]
    exact bodyEntry_mask hchecking _
  cases (exec_body self s).symm.trans hstep
  obtain ⟨-, howner, -, hreturn, hforeign⟩ := hok
  cases hown : s.seq.pos.owner with
  | some x =>
    obtain rfl := howner x hown
    obtain ⟨⟨-, bits, hbits, hmask⟩, hgoes⟩ := bodyStep_writes hown
    refine ⟨fun hchecking => ?_, fun _ hdispatch => absurd hdispatch hgoes.not_dispatch⟩
    obtain ⟨hshow, hclear, hret, hdispatch⟩ := hgoes.ends hchecking
    refine ⟨?_, ?_, hshow, hclear, fun h => absurd h hret, fun h => absurd h hdispatch⟩
    · rw [hmask, BitVec.and_comm, BitVec.and_or_distrib_left]
      ext i hi
      simp +contextual
    · simp [hmask, BitVec.and_or_distrib_right, hforeign hchecking hp, hbits]
  | none =>
    obtain ⟨hmask, hgoes⟩ := shared_end (self := self) hown hp
    rw [hmask]
    obtain ⟨o, hfrom, hto⟩ | ⟨o, hfrom, hto, houtcome⟩ := hgoes
    · have hreturn : (self.checking = true ∧ o = .error ∧ s.seq.mask ≠ 0) ∨ (self = .error ∧ o = .noError) := by
        obtain hfrom | hfrom := hfrom <;> simpa [Seq.returnOk, hfrom] using hreturn
      refine ⟨fun hchecking => ?_, fun _ hdispatch => ?_⟩
      · obtain ⟨-, rfl, hne⟩ | ⟨rfl, -⟩ := hreturn
        · refine ⟨BitVec.and_self, hforeign hchecking hp, ?_⟩
          obtain hto | hto := hto <;> simp [hto, hfrom]
        · cases hchecking
      · obtain hto | hto := hto <;> simp [hto] at hdispatch
    · simp only [Seq.returnOk, hfrom] at hreturn
      rw [hto, houtcome]
      refine ⟨fun hchecking => ?_, fun hchecking _ => by simpa [hchecking] using hreturn⟩
      exact ⟨BitVec.and_self, hforeign hchecking hp, nofun, nofun, nofun, fun _ => by simpa [hchecking] using hreturn⟩

end Sys2Proof.Machine
end

section
/-! PROOFS. Runs of the core with a tick at hand whenever SEQ waits, and the bodies without a check run whole: `SoutBus`
(R158), `ExtBus` (R164), `ShowError` (R156) and the `Error` body (R165). -/

namespace Sys2Proof.Machine

/-! ### Turns of the core, up to the tick flag each of them sets first -/

/-- `n` turns of the core, each with a tick at hand, lead from `s` to `t`, whatever the tick flag holds after them. -/
def Turns (n : Nat) (s t : State) : Prop := ∃ flag, coreRun n s = .next { t with cycleFlag := flag }

section
variable {self : TestId} {m n : Nat} {s t u : State}

/-- A turn with a tick at hand does not look at the tick flag. -/
theorem coreRun_flag (n : Nat) (s : State) (flag : Bool) :
    coreRun (n + 1) { s with cycleFlag := flag } = coreRun (n + 1) s := rfl

theorem Turns.refl (s : State) : Turns 0 s s := ⟨s.cycleFlag, rfl⟩

theorem Turns.trans (h : Turns m s t) (h' : Turns n t u) : Turns (m + n) s u := by
  obtain ⟨flag, h⟩ := h
  obtain ⟨flag', h'⟩ := h'
  cases n with
  | zero =>
    obtain rfl : t = { u with cycleFlag := flag' } := Host.Outcome.next.inj h'
    exact ⟨flag, h⟩
  | succ n => exact ⟨flag', by rw [coreRun_add _ _ _ _ h, coreRun_flag, h']⟩

/-- With FCE idle a turn of the core is one step of the body of the current test. -/
theorem coreTurn_body (hidle : s.fce.phase = .idle) (hcur : s.seq.cur = self.code) :
    coreTurn s = .next (bodyStep self (tickStep s)) :=
  core_body (s := tickStep s) hidle hcur

theorem Turns.body (hidle : s.fce.phase = .idle) (hcur : s.seq.cur = self.code) (flag : Bool)
    (h : bodyStep self (tickStep s) = { t with cycleFlag := flag }) : Turns 1 s t :=
  ⟨flag, by rw [coreRun_succ _ _ _ (coreTurn_body hidle hcur), h]; rfl⟩

/-- The return of a body after a run, in a turn that leaves its tick. -/
theorem Turns.returns (h : Turns n s t) {o : TestOutcome} (hp : t.seq.pos = .ret o) (hidle : t.fce.phase = .idle)
    (hcur : t.seq.cur = self.code) : coreRun (n + 1) s = .next { finishDispatch self o t with cycleFlag := true } := by
  obtain ⟨flag, h⟩ := h
  rw [coreRun_add n 1 _ _ h, coreRun_flag, coreRun_succ _ _ _ (coreTurn_body hidle hcur),
    bodyStep_ret (s := tickStep t) self hp]
  rfl

/-! ### `SoutBus` -/

/-- The output event of line `i`. -/
def soutLine (i : Nat) : OutEvent := ⟨.set (walkingBit i), walkingBit i⟩

theorem soutPass_eq : soutPass = (List.range' 0 8).map soutLine := by decide

/-- `s` after line `i` of a pass was driven and its tick consumed. -/
def soutShown (s : State) (i : Nat) : State :=
  { s with
    seq := { s.seq with i := i, pos := .soutWait }, out := walkingBit i, outTrace := s.outTrace ++ [soutLine i]
    ticksConsumed := s.ticksConsumed + 1 }

theorem soutNext_flag (s : State) (flag : Bool) :
    soutNext { s with cycleFlag := flag } = { soutNext s with cycleFlag := flag } := by
  unfold soutNext
  dsimp only
  split_ifs <;> rfl

/-- One line: driven in one turn, its tick consumed in the next. -/
theorem soutLine_turns (hp : s.seq.pos = .soutSet) (hidle : s.fce.phase = .idle) (hcur : s.seq.cur = 1) :
    Turns 2 s (soutNext (soutShown s s.seq.i)) := by
  let u : State := { s with
    seq := { s.seq with pos := .soutWait }, out := walkingBit s.seq.i, outTrace := s.outTrace ++ [soutLine s.seq.i] }
  have hset : Turns 1 s u := .body (self := .soutBus) hidle hcur true (by
    simp only [bodyStep, soutBusStep, tickStep_seq, hp]
    rfl)
  have hwait : Turns 1 u (soutNext (soutShown s s.seq.i)) := .body (self := .soutBus) hidle hcur false (by
    simp only [bodyStep, soutBusStep, tickStep_seq, u]
    rw [waitTick_set _ _ rfl, ← soutNext_flag]
    rfl)
  exact hset.trans hwait

/-- The lines of a pass from `i` on, up to the end of the last one. -/
theorem soutPass_turns {i : Nat} (hi : i + n = 7) (hs : s.seq.i = i) (hp : s.seq.pos = .soutSet)
    (hidle : s.fce.phase = .idle) (hcur : s.seq.cur = 1) :
    Turns (2 * (n + 1)) s (soutNext { s with
      seq := { s.seq with i := 7, pos := .soutWait }, out := 0x80
      outTrace := s.outTrace ++ (List.range' i (n + 1)).map soutLine
      ticksConsumed := s.ticksConsumed + (n + 1) }) := by
  induction n generalizing s i with
  | zero =>
    obtain rfl : i = 7 := hi
    have hline := soutLine_turns hp hidle hcur
    rwa [hs] at hline
  | succ n ih =>
    let u : State := { soutShown s i with seq := { s.seq with i := i + 1, pos := .soutSet } }
    have hfirst : Turns 2 s u := by
      have hline := soutLine_turns hp hidle hcur
      rwa [hs, soutNext, if_pos (by change i < 7; omega)] at hline
    have hrest := ih (s := u) (i := i + 1) (by omega) rfl rfl hidle hcur
    rw [show 2 * (n + 1 + 1) = 2 + 2 * (n + 1) by omega]
    convert hfirst.trans hrest using 2
    simp [u, soutShown, List.range'_succ]
    omega

/-! ### `ExtBus` -/

/-- An element of the pattern: driven in one turn, its tick consumed in the next. -/
theorem extBusElement_turns {k : Nat} (hk : k < s.cfg.extbusPattern.length) (hidle : s.fce.phase = .idle)
    (hcur : s.seq.cur = 6) :
    Turns 2 (extBusAt k s) (extBusAt (k + 1) { s with
      periphTrace := s.periphTrace ++ [.extBus (extbusState s.cfg.toParams k)]
      ticksConsumed := s.ticksConsumed + 1 }) := by
  let u : State := { s with
    seq := { s.seq with k := k, pos := .ebWait }
    periphTrace := s.periphTrace ++ [.extBus (extbusState s.cfg.toParams k)] }
  have hdrive : Turns 1 (extBusAt k s) u := .body (self := .extBus) hidle hcur true (by
    rw [extBusAt, if_pos hk]
    rfl)
  exact hdrive.trans (.body (self := .extBus) hidle hcur false rfl)

/-- The pattern from element `k` on. -/
theorem extBusPattern_turns {k : Nat} (hk : k + n = s.cfg.extbusPattern.length) (hidle : s.fce.phase = .idle)
    (hcur : s.seq.cur = 6) :
    Turns (2 * n) (extBusAt k s) { s with
      seq := { s.seq with k := s.cfg.extbusPattern.length, pos := .ret .noError }
      periphTrace := s.periphTrace ++ (s.cfg.extbusPattern.drop k).map .extBus
      ticksConsumed := s.ticksConsumed + n } := by
  induction n generalizing s k with
  | zero =>
    obtain rfl : k = s.cfg.extbusPattern.length := hk
    have hend : extBusAt s.cfg.extbusPattern.length s =
        { s with seq := { s.seq with k := s.cfg.extbusPattern.length, pos := .ret .noError } } := by
      rw [extBusAt, if_neg (Nat.lt_irrefl _)]
      rfl
    rw [hend, List.drop_length, List.map_nil, List.append_nil]
    exact .refl _
  | succ n ih =>
    have hlt : k < s.cfg.extbusPattern.length := by omega
    rw [show 2 * (n + 1) = 2 + 2 * n by omega]
    convert (extBusElement_turns hlt hidle hcur).trans (ih (k := k + 1) (by simp only; omega) hidle hcur) using 2
    · rw [List.drop_eq_getElem_cons hlt, List.map_cons, extbusState, List.getD_eq_getElem _ _ hlt, List.append_assoc]
      rfl
    · simp only; omega

/-! ### `ShowError` (R156) -/

/-- A tick of `ShowError`. -/
theorem showWait_step {o : TestOutcome} (hp : s.seq.pos = .showWait o) :
    bodyStep self (tickStep s) =
      if s.seq.n < s.cfg.errorDisplayTicks then (consumeTick (tickStep s)).onSeq fun q => { q with n := q.n + 1 }
      else goto (.ret o) (consumeTick (tickStep s)) := by
  rw [bodyStep_shared self (by rw [tickStep_seq, hp]; rfl)]
  simp only [sharedStep, tickStep_seq, hp, showWaitStep]
  rw [waitTick_set _ _ rfl]
  rfl

/-- The ticks of `ShowError` from number `k` on. -/
theorem showWait_turns {o : TestOutcome} {k : Nat} (hk : k + n = s.cfg.errorDisplayTicks) (hs : s.seq.n = k)
    (hp : s.seq.pos = .showWait o) (hidle : s.fce.phase = .idle) (hcur : s.seq.cur = self.code) :
    Turns (n + 1) s { s with
      seq := { s.seq with n := k + n, pos := .ret o }, ticksConsumed := s.ticksConsumed + (n + 1) } := by
  subst hs
  induction n generalizing s with
  | zero =>
    refine .body hidle hcur false ?_
    rw [showWait_step hp, if_neg (by omega)]
    rfl
  | succ n ih =>
    let u : State := { s with seq := { s.seq with n := s.seq.n + 1 }, ticksConsumed := s.ticksConsumed + 1 }
    have hfirst : Turns 1 s u := .body hidle hcur false (by rw [showWait_step hp, if_pos (by omega)]; rfl)
    rw [show n + 1 + 1 = 1 + (n + 1) by omega]
    convert hfirst.trans (ih (s := u) hp hidle hcur (by simp only [u]; omega)) using 2
    · simp only [u, show s.seq.n + (n + 1) = s.seq.n + 1 + n by omega]
    · simp only [u, Nat.add_assoc]

/-- `ShowError` whole: one `OutSet(mask)`, then its ticks (R156). -/
theorem showError_turns {o : TestOutcome} (hp : s.seq.pos = .showSet o) (hidle : s.fce.phase = .idle)
    (hcur : s.seq.cur = self.code) :
    ∃ n, Turns (s.cfg.errorDisplayTicks + 1) s { s with
      seq := { s.seq with n := n, pos := .ret o }, out := s.seq.mask
      outTrace := s.outTrace ++ [⟨.set s.seq.mask, s.seq.mask⟩]
      ticksConsumed := s.ticksConsumed + s.cfg.errorDisplayTicks } := by
  have hstep : bodyStep self (tickStep s) = showSetStep o (tickStep s) := by
    rw [bodyStep_shared self (by rw [tickStep_seq, hp]; rfl)]
    simp only [sharedStep, tickStep_seq, hp]
  rw [showSetStep_eq] at hstep
  cases hticks : s.cfg.errorDisplayTicks with
  | zero =>
    rw [if_pos (by exact hticks)] at hstep
    exact ⟨1, .body hidle hcur true (hstep.trans rfl)⟩
  | succ n =>
    rw [if_neg (by rw [tickStep_cfg, hticks]; omega)] at hstep
    let u : State := { s with
      seq := { s.seq with n := 1, pos := .showWait o }, out := s.seq.mask
      outTrace := s.outTrace ++ [⟨.set s.seq.mask, s.seq.mask⟩] }
    have hset : Turns 1 s u := .body hidle hcur true (hstep.trans rfl)
    refine ⟨1 + n, ?_⟩
    rw [show n + 1 + 1 = 1 + (n + 1) by omega]
    exact hset.trans (showWait_turns (s := u) (by simp only [u]; omega) rfl rfl hidle hcur)

end

/-! ### The obligations -/

/-- Settles O40: the entry, two passes of eight lines, the return. -/
theorem soutBusBody : Obligations.SoutBusBody := by
  unfold Obligations.SoutBusBody
  rintro s ⟨hcur, hp, hidle⟩
  let t : State := { s with
    seq := { s.seq with outcome := .noError, pass := 0, i := 0, pos := .soutSet }
    dispatchTrace := s.dispatchTrace ++ [1] }
  have hentry : exec .soutBus s = .next t :=
    (exec_body .soutBus s).trans (congrArg _ (bodyStep_dispatch .soutBus hp))
  have hfirst := soutPass_turns (s := t) (i := 0) (n := 7) rfl rfl rfl hidle hcur
  let u : State := { t with
    seq := { t.seq with pass := 1 }, out := 0x80, outTrace := t.outTrace ++ soutPass
    ticksConsumed := t.ticksConsumed + 8 }
  rw [← soutPass_eq, soutNext, if_neg (by simp), if_pos (by exact Nat.zero_lt_one)] at hfirst
  have hsecond := soutPass_turns (s := u) (i := 0) (n := 7) rfl rfl rfl hidle hcur
  rw [← soutPass_eq, soutNext, if_neg (by simp), if_neg (by exact Nat.lt_irrefl 1)] at hsecond
  have hboth : Turns 32 t _ := Turns.trans (t := u) hfirst hsecond
  exact ⟨t, _, hentry, hboth.returns (self := .soutBus) rfl hidle hcur, _, rfl, rfl, rfl, rfl, rfl⟩

/-- Settles O44: the entry, the elements of the pattern, the return. -/
theorem extBusBody : Obligations.ExtBusBody := by
  unfold Obligations.ExtBusBody
  rintro s ⟨hcur, hp, hidle⟩
  let t : State := { s with
    seq := { s.seq with outcome := .noError }, dispatchTrace := s.dispatchTrace ++ [6] }
  have hentry : exec .extBus s = .next (extBusAt 0 t) :=
    (exec_body .extBus s).trans (congrArg _ (bodyStep_dispatch .extBus hp))
  have hall := (extBusPattern_turns (s := t) (k := 0) (Nat.zero_add _) hidle hcur).returns (self := .extBus) rfl hidle
    hcur
  exact ⟨_, _, hentry, hall, _, rfl, rfl, rfl, rfl, rfl⟩

/-- Settles O45: `ShowError` in any body; the `Error` body is it and its return. -/
theorem showErrorDisplaysTheMask : Obligations.ShowErrorDisplaysTheMask := by
  unfold Obligations.ShowErrorDisplaysTheMask
  refine ⟨fun self o s hcur hidle hp => ?_, fun s => ?_⟩
  · obtain ⟨n, flag, hrun⟩ := showError_turns (self := self) hp hidle hcur
    exact ⟨_, flag, _, hrun, rfl, rfl, rfl, rfl, rfl⟩
  · rintro ⟨hcur, hp, hidle⟩
    let t : State := { s with
      seq := { s.seq with outcome := .noError, pos := .showSet .noError }, dispatchTrace := s.dispatchTrace ++ [0] }
    have hentry : exec .testError s = .next t :=
      (exec_body .error s).trans (congrArg _ (bodyStep_dispatch .error hp))
    obtain ⟨n, hshow⟩ := showError_turns (self := .error) (s := t) rfl hidle hcur
    exact ⟨_, t, _, hentry, hshow.returns (self := .error) rfl hidle hcur, rfl, rfl, rfl, rfl, rfl⟩

end Sys2Proof.Machine
end

section
/-! PROOFS. The checking bodies without a flash request run whole on scripted answers of PERIPH: `PlisRegisters` (R159),
`DataBus` (R160) and `TwoRam` (R163). -/

namespace Sys2Proof.Machine

/-! ### Stretches of a body on scripted answers -/

/-- From every state of body `self` whose registers meet `P`, with `answers` next in PERIPH's script, `n` turns consume
`ticks` ticks and those answers, make the accesses `events`, and end in registers that meet `Q`; nothing else changes. -/
def Stretch (self : TestId) (c : Params) (n ticks : Nat) (answers : List Byte) (events : List PeriphEvent)
    (P Q : Seq → Prop) : Prop :=
  ∀ s rest, s.cfg.toParams = c → s.fce.phase = .idle → s.seq.cur = self.code → P s.seq →
    s.periph = .oracle (answers ++ rest) → ∃ q, Turns n s { s with
      seq := q, periph := .oracle rest, periphTrace := s.periphTrace ++ events
      ticksConsumed := s.ticksConsumed + ticks } ∧ q.cur = self.code ∧ Q q

section
variable {self : TestId} {c : Params} {m n ticks ticks' : Nat} {answers answers' : List Byte}
  {events events' : List PeriphEvent} {P Q R : Seq → Prop} {s : State}

/-- One turn of the body. -/
theorem Stretch.step (h : ∀ s rest, s.cfg.toParams = c → P s.seq → s.periph = .oracle (answers ++ rest) →
    s.cycleFlag = true → ∃ q flag, bodyStep self s = { s with
      seq := q, cycleFlag := flag, periph := .oracle rest, periphTrace := s.periphTrace ++ events
      ticksConsumed := s.ticksConsumed + ticks } ∧ q.cur = s.seq.cur ∧ Q q) :
    Stretch self c 1 ticks answers events P Q := by
  intro s rest hc hidle hcur hP hper
  obtain ⟨q, flag, hstep, hqcur, hQ⟩ := h (tickStep s) rest hc hP hper rfl
  exact ⟨q, .body hidle hcur flag hstep, hqcur.trans hcur, hQ⟩

/-- One turn of the body without an access that PERIPH answers or takes. -/
theorem Stretch.quiet (h : ∀ s, s.cfg.toParams = c → P s.seq → s.cycleFlag = true → ∃ q flag,
    bodyStep self s = { s with
      seq := q, cycleFlag := flag, periphTrace := s.periphTrace ++ events, ticksConsumed := s.ticksConsumed + ticks } ∧
    q.cur = s.seq.cur ∧ Q q) : Stretch self c 1 ticks [] events P Q :=
  .step fun s rest hc hP hper hflag => by
    obtain ⟨q, flag, hstep, hcur, hQ⟩ := h s hc hP hflag
    exact ⟨q, flag, by rw [hstep, ← (show s.periph = .oracle rest from hper)], hcur, hQ⟩

theorem Stretch.trans (h : Stretch self c m ticks answers events P Q)
    (h' : Stretch self c n ticks' answers' events' Q R) :
    Stretch self c (m + n) (ticks + ticks') (answers ++ answers') (events ++ events') P R := by
  intro s rest hc hidle hcur hP hper
  obtain ⟨q, hrun, hqcur, hQ⟩ := h s (answers' ++ rest) hc hidle hcur hP (by rw [hper, List.append_assoc])
  obtain ⟨q', hrun', hqcur', hR⟩ := h' { s with
    seq := q, periph := .oracle (answers' ++ rest), periphTrace := s.periphTrace ++ events
    ticksConsumed := s.ticksConsumed + ticks } rest hc hidle hqcur hQ rfl
  exact ⟨q', by simpa only [List.append_assoc, Nat.add_assoc] using hrun.trans hrun', hqcur', hR⟩

theorem Stretch.refl (P : Seq → Prop) : Stretch self c 0 0 [] [] P P := by
  intro s rest _ _ hcur hP hper
  refine ⟨s.seq, ⟨s.cycleFlag, ?_⟩, hcur, hP⟩
  rw [List.nil_append] at hper
  simp [coreRun, ← hper]

/-- `n` iterations of a loop with invariant `I`. -/
theorem Stretch.iterate {I : Nat → Seq → Prop} {a : Nat → List Byte} {e : Nat → List PeriphEvent}
    (h : ∀ k < n, Stretch self c m ticks (a k) (e k) (I k) (I (k + 1))) :
    Stretch self c (n * m) (n * ticks) ((List.range n).flatMap a) ((List.range n).flatMap e) (I 0) (I n) := by
  induction n with
  | zero => simpa using Stretch.refl (I 0)
  | succ n ih =>
    simp only [List.range_succ, List.flatMap_append, List.flatMap_singleton, Nat.succ_mul]
    exact (ih fun k hk => h k (by omega)).trans (h n (by omega))

/-- A loop of one store in each iteration. -/
theorem Stretch.iterateWrite {I : Nat → Seq → Prop} {e : Nat → PeriphEvent}
    (h : ∀ k < n, Stretch self c 1 0 [] [e k] (I k) (I (k + 1))) :
    Stretch self c n 0 [] ((List.range n).map e) (I 0) (I n) := by
  have hnil : (List.range n).flatMap (fun _ => ([] : List Byte)) = [] := List.flatMap_eq_nil_iff.2 fun _ _ => rfl
  simpa [hnil, List.map_eq_flatMap] using Stretch.iterate h

/-- A loop of one load in each iteration. -/
theorem Stretch.iterateRead {I : Nat → Seq → Prop} {f : Nat → Byte} {e : Nat → PeriphEvent}
    (h : ∀ k < n, Stretch self c 1 0 [f k] [e k] (I k) (I (k + 1))) :
    Stretch self c n 0 ((List.range n).map f) ((List.range n).map e) (I 0) (I n) := by
  simpa [List.map_eq_flatMap] using Stretch.iterate h

/-! ### The accesses of a step on a script -/

theorem periphWrite_oracle (h : Handle) (d : Byte) {rest : List Byte} (hper : s.periph = .oracle rest) :
    periphWrite h d s = { s with periph := .oracle rest, periphTrace := s.periphTrace ++ [.write h d] } := by
  rw [periphWrite, hper]; rfl

theorem ramWrite_oracle (k : Nat) (d : Byte) {rest : List Byte} (hper : s.periph = .oracle rest) :
    ramWrite k d s = { s with periph := .oracle rest, periphTrace := s.periphTrace ++ [.ramWrite k d] } := by
  rw [ramWrite, hper]; rfl

theorem ramRead_oracle (k : Nat) (d : Byte) {rest : List Byte} (hper : s.periph = .oracle (d :: rest)) :
    ramAnswer k s = d ∧
    ramRead k s = { s with periph := .oracle rest, periphTrace := s.periphTrace ++ [.ramRead k d] } := by
  have ha : ramAnswer k s = d := by simp [ramAnswer, periphAnswer, hper]
  exact ⟨ha, by simp [ramRead, State.logPeriph, periphAfterLoad, hper, ha]⟩

/-! ### The bits of a mask (R155) -/

/-- The bit of a check: set where the check did not pass. -/
def bitUnless (ok : Prop) [Decidable ok] (bit : Byte) : Byte := if ok then 0 else bit

theorem bitUnless_and (p q : Prop) [Decidable p] [Decidable q] [Decidable (p ∧ q)] (bit : Byte) :
    bitUnless (p ∧ q) bit = bitUnless p bit ||| bitUnless q bit := by
  unfold bitUnless
  by_cases hp : p <;> by_cases hq : q <;> simp [hp, hq]

/-- The bit of a check made `n` times in a loop. -/
def loopBit (ok : Nat → Prop) [DecidablePred ok] (n : Nat) (bit : Byte) : Byte := bitUnless (∀ k < n, ok k) bit

@[simp] theorem loopBit_zero (ok : Nat → Prop) [DecidablePred ok] (bit : Byte) : loopBit ok 0 bit = 0 :=
  by simp [loopBit, bitUnless]

theorem loopBit_succ (ok : Nat → Prop) [DecidablePred ok] (n : Nat) (bit : Byte) :
    loopBit ok (n + 1) bit = loopBit ok n bit ||| bitUnless (ok n) bit := by
  rw [loopBit, loopBit, ← bitUnless_and]
  simp only [bitUnless, Nat.forall_lt_succ_right]

/-- The mask a check leaves. -/
theorem flagIf_mask (d want bit : Byte) (s : State) :
    (flagIf (d != want) bit s).seq.mask = s.seq.mask ||| bitUnless (d = want) bit := by
  unfold bitUnless
  by_cases h : d = want <;> simp [flagIf, State.onSeq, h]

/-! ### The end of a checking body -/

/-- A checking body whose checks are done shows its mask and returns (R155, R156). -/
theorem checkedRun {t : State} {seq : Seq} {ext : Bool} {rest : List Byte} {mask : Byte}
    (hentry : exec self.instr s = .next t) (hidle : s.fce.phase = .idle)
    (hrun : Turns n t { s with
      seq := seq, extEn := ext, periph := .oracle rest, periphTrace := s.periphTrace ++ events
      dispatchTrace := s.dispatchTrace ++ [self.code], ticksConsumed := s.ticksConsumed + ticks })
    (hcur : seq.cur = self.code) (hpos : seq.pos = afterChecks mask) (hmask : seq.mask = mask) :
    CheckedRun self s n ticks events ext rest mask := by
  subst hmask
  unfold CheckedRun
  by_cases h0 : seq.mask = 0
  · rw [afterChecks, if_neg (not_not.2 h0)] at hpos
    simp only [h0, if_true]
    exact ⟨t, _, _, hentry, hrun.returns hpos hidle hcur, rfl, h0, rfl, rfl, rfl⟩
  · rw [afterChecks, if_pos h0] at hpos
    simp only [h0, if_false]
    obtain ⟨k, hshow⟩ := showError_turns (self := self) (s := { s with
      seq := seq, extEn := ext, periph := .oracle rest, periphTrace := s.periphTrace ++ events
      dispatchTrace := s.dispatchTrace ++ [self.code], ticksConsumed := s.ticksConsumed + ticks }) hpos hidle hcur
    have hall := (hrun.trans hshow).returns rfl hidle hcur
    exact ⟨t, _, _, hentry, hall, rfl, rfl, rfl, rfl, rfl⟩

end

/-! ### `PlisRegisters` -/

section
variable {c : Params} {rep : Nat} {m : Byte}

/-- The registers of a repetition at `p`. -/
structure PlisAt (p : SeqPos) (i rep : Nat) (m : Byte) (q : Seq) : Prop where
  pos : q.pos = p
  i : q.i = i
  rep : q.rep = rep
  mask : q.mask = m

/-- Iteration `k` of a loop of `count` iterations at `p`, or after the last one the start of what follows at `next`. -/
def PlisLoopAt (count : Nat) (p next : SeqPos) (rep : Nat) (m : Nat → Byte) (k : Nat) : Seq → Prop :=
  if k < count then PlisAt p k rep (m k) else PlisAt next 0 rep (m k)

theorem plisAgain_spec {count k : Nat} {p next : SeqPos} {rep : Nat} {m : Nat → Byte} {s : State}
    (hk : s.seq.i = k) (hrep : s.seq.rep = rep) (hmask : s.seq.mask = m (k + 1)) :
    ∃ q, plisAgain count p (plisLoop next) s = { s with seq := q } ∧ q.cur = s.seq.cur ∧
      PlisLoopAt count p next rep m (k + 1) q := by
  subst hk
  unfold plisAgain PlisLoopAt
  split_ifs
  · exact ⟨_, rfl, rfl, rfl, rfl, hrep, hmask⟩
  · exact ⟨_, rfl, rfl, rfl, rfl, hrep, hmask⟩

/-- A walking-bit loop of eight writes and read-backs of `h`, answered `f 0` to `f 7`. -/
theorem plisWalk_stretch {w r next : SeqPos} {h : Handle} {bit : Byte} {f : Nat → Byte}
    (hwrite : ∀ s, s.cfg.toParams = c → s.seq.pos = w → bodyStep .plisRegisters s = goto r (plisWalk h s))
    (hread : ∀ s, s.cfg.toParams = c → s.seq.pos = r →
      bodyStep .plisRegisters s = plisAgain 8 w (plisLoop next) (plisCheck h s.seq.p bit s)) :
    Stretch .plisRegisters c 16 0 ((List.range 8).flatMap fun j => [f j])
      ((List.range 8).flatMap fun j => [.write h (walkingBit j), .read h (f j)])
      (PlisAt w 0 rep m) (PlisAt next 0 rep (m ||| loopBit (fun j => f j = walkingBit j) 8 bit)) := by
  let mask (k : Nat) : Byte := m ||| loopBit (fun j => f j = walkingBit j) k bit
  have hloop : Stretch .plisRegisters c (8 * (1 + 1)) (8 * (0 + 0)) _ _
      (PlisLoopAt 8 w next rep mask 0) (PlisLoopAt 8 w next rep mask 8) :=
    .iterate (a := fun j => [] ++ [f j]) (e := fun j => [.write h (walkingBit j)] ++ [.read h (f j)]) fun k hk => by
      rw [PlisLoopAt, if_pos hk]
      refine .trans (Q := fun q => PlisAt r k rep (mask k) q ∧ q.p = walkingBit k) (.step ?_) (.step ?_)
      · rintro s rest hc ⟨hpos, hi, hrep, hmask⟩ hper -
        rw [hwrite s hc hpos, plisWalk, hi, periphWrite_oracle _ _ hper]
        exact ⟨_, s.cycleFlag, rfl, rfl, ⟨rfl, hi, hrep, hmask⟩, congrArg walkingBit hi⟩
      · rintro s rest hc ⟨⟨hpos, hi, hrep, hmask⟩, hp⟩ hper -
        obtain ⟨hanswer, hafter⟩ := periphRead_oracle _ h _ _ hper
        rw [hread s hc hpos, plisCheck, hanswer, hafter, hp]
        obtain ⟨q, hq, hcur, hat⟩ := plisAgain_spec (count := 8) (p := w) (next := next) (m := mask)
          (s := flagIf (f k != walkingBit k) bit { s with
            periph := .oracle rest, periphTrace := s.periphTrace ++ [.read h (f k)] }) hi hrep (by
            rw [flagIf_mask, hmask, BitVec.or_assoc, ← loopBit_succ])
        exact ⟨q, s.cycleFlag, hq, hcur, hat⟩
  simpa [PlisLoopAt, mask] using hloop

/-- The four sentinel writes. -/
theorem plisAliasWrite_stretch :
    Stretch .plisRegisters c 4 0 [] ((List.range 4).map fun j => .write (aliasRegister c j) (aliasSentinel c j))
      (PlisAt .plisAliasWrite 0 rep m) (PlisAt .plisAliasRead 0 rep m) := by
  refine .iterateWrite (I := PlisLoopAt 4 .plisAliasWrite .plisAliasRead rep fun _ => m) fun k hk => ?_
  rw [PlisLoopAt, if_pos hk]
  refine .step ?_
  rintro s rest rfl ⟨hpos, hi, hrep, hmask⟩ hper -
  obtain ⟨q, hq, hcur, hat⟩ := plisAgain_spec (count := 4) (p := .plisAliasWrite) (next := .plisAliasRead)
    (m := fun _ => m) (s := periphWrite (aliasRegister s.cfg.toParams k) (aliasSentinel s.cfg.toParams k) s)
    hi hrep hmask
  have hstep : bodyStep .plisRegisters s = { periphWrite (aliasRegister s.cfg.toParams k)
      (aliasSentinel s.cfg.toParams k) s with seq := q } := by
    simp only [bodyStep, plisStep, hpos, hi]
    exact hq
  rw [periphWrite_oracle _ _ hper] at hstep
  exact ⟨q, s.cycleFlag, hstep, hcur, hat⟩

/-- Repetition `rep` is about to begin, or after the last one the body's checks are done. -/
def PlisHead (rep : Nat) (m : Byte) (q : Seq) : Prop :=
  q.pos = (if rep < 4 then .plisWait else afterChecks m) ∧ (rep < 4 → q.rep = rep) ∧ q.mask = m

/-- The end of a repetition. -/
theorem plisRepetitionDone_spec {s : State} (hrep : s.seq.rep = rep) (hlt : rep < 4) (hmask : s.seq.mask = m) :
    ∃ q, plisRepetitionDone s = { s with seq := q } ∧ q.cur = s.seq.cur ∧ PlisHead (rep + 1) m q := by
  subst hrep hmask
  unfold plisRepetitionDone PlisHead
  split_ifs
  · exact ⟨_, rfl, rfl, rfl, fun _ => rfl, rfl⟩
  · omega
  · omega
  · exact ⟨_, rfl, rfl, rfl, by omega, rfl⟩

/-- The four reads of the sentinels and the end of the repetition. -/
theorem plisAliasRead_stretch {f : Nat → Byte} (hrep : rep < 4) :
    Stretch .plisRegisters c 4 0 ((List.range 4).map f) ((List.range 4).map fun j => .read (aliasRegister c j) (f j))
      (PlisAt .plisAliasRead 0 rep m)
      (PlisHead (rep + 1) (m ||| loopBit (fun j => f j = aliasSentinel c j) 4 0x08)) := by
  let mask (k : Nat) : Byte := m ||| loopBit (fun j => f j = aliasSentinel c j) k 0x08
  let I (k : Nat) : Seq → Prop :=
    if k < 4 then PlisAt .plisAliasRead k rep (mask k) else PlisHead (rep + 1) (mask k)
  have hloop : Stretch .plisRegisters c 4 0 _ _ (I 0) (I 4) :=
    .iterateRead (f := f) (e := fun j => .read (aliasRegister c j) (f j)) fun k hk => by
      simp only [I, if_pos hk]
      refine .step ?_
      rintro s rest rfl ⟨hpos, hi, hrep', hmask⟩ hper -
      obtain ⟨hanswer, hafter⟩ := periphRead_oracle _ (aliasRegister s.cfg.toParams k) _ _ hper
      let t : State := flagIf (f k != aliasSentinel s.cfg.toParams k) 0x08 { s with
        periph := .oracle rest, periphTrace := s.periphTrace ++ [.read (aliasRegister s.cfg.toParams k) (f k)] }
      have hstep : bodyStep .plisRegisters s = plisAgain 4 .plisAliasRead plisRepetitionDone t := by
        simp only [bodyStep, plisStep, hpos, plisCheck, hi, hanswer, hafter]
        rfl
      have hm : t.seq.mask = mask (k + 1) := by rw [flagIf_mask, hmask, BitVec.or_assoc, ← loopBit_succ]
      rw [hstep, plisAgain, show t.seq.i = k from hi]
      split_ifs with hlt
      · exact ⟨_, s.cycleFlag, rfl, rfl, rfl, congrArg (· + 1) hi, hrep', hm⟩
      · obtain ⟨q, hq, hcur, hat⟩ := plisRepetitionDone_spec (s := t) hrep' hrep hm
        exact ⟨q, s.cycleFlag, hq, hcur, hat⟩
  simpa [I, mask] using hloop

/-- The mask of one repetition. -/
def plisBits (c : Params) (a : Nat → Byte) : Byte :=
  bitUnless (a 0 = c.versionExpected) 0x01 ||| loopBit (fun j => a (1 + j) = walkingBit j) 8 0x02 |||
  loopBit (fun j => a (9 + j) = walkingBit j) 8 0x04 ||| loopBit (fun j => a (17 + j) = aliasSentinel c j) 4 0x08

/-- The tick and the version check. -/
theorem plisVersion_stretch {d : Byte} (hrep : rep < 4) :
    Stretch .plisRegisters c 2 1 [d] [.read c.versionReg d] (PlisHead rep m)
      (PlisAt .plisExtWrite 0 rep (m ||| bitUnless (d = c.versionExpected) 0x01)) := by
  refine .trans (m := 1) (n := 1) (ticks' := 0) (answers := []) (events := [])
    (Q := fun q => q.pos = .plisVersion ∧ q.rep = rep ∧ q.mask = m) (.quiet ?_) (.step ?_)
  · rintro s - ⟨hpos, hr, hmask⟩ hflag
    rw [if_pos hrep] at hpos
    refine ⟨{ s.seq with pos := .plisVersion }, false, ?_, rfl, rfl, hr hrep, hmask⟩
    simp only [bodyStep, plisStep, hpos, waitTick_set _ _ hflag, List.append_nil]
    rfl
  · rintro s rest rfl ⟨hpos, hr, hmask⟩ hper -
    obtain ⟨hanswer, hafter⟩ := periphRead_oracle _ s.cfg.versionReg _ _ hper
    have hstep : bodyStep .plisRegisters s = plisLoop .plisExtWrite (flagIf (d != s.cfg.versionExpected) 0x01 { s with
        periph := .oracle rest, periphTrace := s.periphTrace ++ [.read s.cfg.versionReg d] }) := by
      simp only [bodyStep, plisStep, hpos, plisCheck, hanswer, hafter]
      rfl
    refine ⟨_, s.cycleFlag, hstep, rfl, rfl, rfl, hr, ?_⟩
    rw [← hmask]
    exact flagIf_mask d _ _ s

/-- Repetition `rep`: its tick, the version, the two walking-bit checks and the sentinels. -/
theorem plisRepetition_stretch {a : Nat → Byte} (hrep : rep < 4) :
    Stretch .plisRegisters c 42 1 ((List.range 21).map a) (plisEvents c a) (PlisHead rep m)
      (PlisHead (rep + 1) (m ||| plisBits c a)) := by
  have hext := plisWalk_stretch (c := c) (rep := rep) (m := m ||| bitUnless (a 0 = c.versionExpected) 0x01)
    (w := .plisExtWrite) (r := .plisExtRead) (next := .plisInitWrite) (h := c.extSettingsReg) (bit := 0x02)
    (f := fun j => a (1 + j)) (by rintro s rfl hpos; simp only [bodyStep, plisStep, hpos])
    (by rintro s rfl hpos; simp only [bodyStep, plisStep, hpos])
  have hinit := plisWalk_stretch (c := c) (rep := rep)
    (m := m ||| bitUnless (a 0 = c.versionExpected) 0x01 ||| loopBit (fun j => a (1 + j) = walkingBit j) 8 0x02)
    (w := .plisInitWrite) (r := .plisInitRead) (next := .plisAliasWrite) (h := c.initReg) (bit := 0x04)
    (f := fun j => a (9 + j)) (by rintro s rfl hpos; simp only [bodyStep, plisStep, hpos])
    (by rintro s rfl hpos; simp only [bodyStep, plisStep, hpos])
  have hall := (((plisVersion_stretch (c := c) (d := a 0) hrep).trans hext).trans hinit).trans
    (plisAliasWrite_stretch.trans (plisAliasRead_stretch (f := fun j => a (17 + j)) hrep))
  have hanswers : (List.range 21).map a = [a 0] ++ (List.range 8).flatMap (fun j => [a (1 + j)]) ++
      (List.range 8).flatMap (fun j => [a (9 + j)]) ++ ([] ++ (List.range 4).map fun j => a (17 + j)) := rfl
  rw [hanswers]
  simpa only [plisEvents, plisBits, BitVec.or_assoc, List.append_assoc] using hall

/-- The mask after one more repetition. -/
theorem plisMask_succ (a : Nat → Nat → Byte) (n : Nat) :
    plisMask c (n + 1) a = plisMask c n a ||| plisBits c (a n) := by
  have heq (n : Nat) : plisMask c n a = loopBit (fun r => a r 0 = c.versionExpected) n 0x01 |||
      loopBit (fun r => ∀ j ∈ List.range 8, a r (1 + j) = walkingBit j) n 0x02 |||
      loopBit (fun r => ∀ j ∈ List.range 8, a r (9 + j) = walkingBit j) n 0x04 |||
      loopBit (fun r => ∀ j ∈ List.range 4, a r (17 + j) = aliasSentinel c j) n 0x08 := rfl
  simp only [heq, loopBit_succ]
  simp only [plisBits, loopBit, List.mem_range, bitUnless]
  ac_rfl

end

/-! ### `DataBus` -/

section
variable {c : Params} {m d e : Byte} {v : Nat}

/-- Iteration `v` is about to begin, or after the last one the disable. -/
def DbHead (v : Nat) (m : Byte) (q : Seq) : Prop :=
  q.pos = (if v < 255 then .dbWrite else .dbDisable) ∧ (v < 255 → q.v = BitVec.ofNat 8 v) ∧ q.mask = m

/-- The registers of iteration `v` at `p`. -/
structure DbAt (p : SeqPos) (v : Nat) (m : Byte) (q : Seq) : Prop where
  pos : q.pos = p
  v : q.v = BitVec.ofNat 8 v
  mask : q.mask = m

/-- The end of an iteration: 255 is not tested. -/
theorem dbNext_spec {s : State} (hv : v < 255) (hval : s.seq.v = BitVec.ofNat 8 v) (hmask : s.seq.mask = m) :
    ∃ q, dbNext s = { s with seq := q } ∧ q.cur = s.seq.cur ∧ DbHead (v + 1) m q := by
  have hnat : s.seq.v.toNat = v := by rw [hval, BitVec.toNat_ofNat, Nat.mod_eq_of_lt (by omega)]
  unfold dbNext DbHead
  split_ifs
  · exact ⟨_, rfl, rfl, rfl, fun _ => by simp [State.onSeq, hval, BitVec.ofNat_add], hmask⟩
  · omega
  · omega
  · exact ⟨_, rfl, rfl, rfl, by omega, hmask⟩

/-- The masked compare of the paired register, as the mask's bit. -/
theorem dbPaired_mask (s : State) :
    (flagIf (dbPairedDiffers c d e) 0x02 s).seq.mask =
      s.seq.mask ||| bitUnless (e &&& c.dbCmpMask = dbPerm c d &&& c.dbCmpMask) 0x02 :=
  flagIf_mask _ _ _ _

/-- The write of iteration `v`. -/
theorem dbWrite_stretch (hv : v < 255) :
    Stretch .dataBus c 1 0 [] [.write c.dbWrReg (BitVec.ofNat 8 v)] (DbHead v m) (DbAt .dbReadBack v m) := by
  refine .step ?_
  rintro s rest rfl ⟨hpos, hval, hmask⟩ hper -
  rw [if_pos hv] at hpos
  have hstep : bodyStep .dataBus s = goto .dbReadBack (periphWrite s.cfg.dbWrReg (BitVec.ofNat 8 v) s) := by
    simp only [bodyStep, dataBusStep, hpos, hval hv]
  rw [periphWrite_oracle _ _ hper] at hstep
  exact ⟨_, s.cycleFlag, hstep, rfl, rfl, hval hv, hmask⟩

/-- The read-back of iteration `v`. -/
theorem dbReadBack_stretch :
    Stretch .dataBus c 1 0 [d] [.read c.dbWrReg d] (DbAt .dbReadBack v m)
      (DbAt .dbReadPaired v (m ||| bitUnless (d = BitVec.ofNat 8 v) 0x01)) := by
  refine .step ?_
  rintro s rest rfl ⟨hpos, hval, hmask⟩ hper -
  obtain ⟨hanswer, hafter⟩ := periphRead_oracle _ s.cfg.dbWrReg _ _ hper
  have hstep : bodyStep .dataBus s = goto .dbReadPaired (dbCheckWritten s) := by
    simp only [bodyStep, dataBusStep, hpos]
  simp only [dbCheckWritten, hanswer, hafter, hval] at hstep
  exact ⟨_, s.cycleFlag, hstep, rfl, rfl, hval, hmask ▸ flagIf_mask d _ _ s⟩

/-- The read of the paired register. -/
theorem dbReadPaired_stretch :
    Stretch .dataBus c 1 0 [e] [.read c.dbRdReg e] (DbAt .dbReadPaired v m)
      (DbAt .dbSettle v (m ||| bitUnless (e &&& c.dbCmpMask = dbPerm c (BitVec.ofNat 8 v) &&& c.dbCmpMask) 0x02)) := by
  refine .step ?_
  rintro s rest rfl ⟨hpos, hval, hmask⟩ hper -
  obtain ⟨hanswer, hafter⟩ := periphRead_oracle _ s.cfg.dbRdReg _ _ hper
  have hstep : bodyStep .dataBus s = goto .dbSettle (dbCheckPaired s) := by
    simp only [bodyStep, dataBusStep, hpos]
  simp only [dbCheckPaired, hanswer, hafter, hval] at hstep
  exact ⟨_, s.cycleFlag, hstep, rfl, rfl, hval, hmask ▸ dbPaired_mask s⟩

/-- The settling, the watchdog and the next value. -/
theorem dbSettle_stretch (hv : v < 255) :
    Stretch .dataBus c 2 0 [] [.wdtTouch] (DbAt .dbSettle v m) (DbHead (v + 1) m) := by
  refine .trans (m := 1) (n := 1) (ticks := 0) (ticks' := 0) (answers := []) (answers' := []) (events := [])
    (Q := DbAt .dbWdt v m) (.quiet ?_) (.quiet ?_)
  · rintro s rfl ⟨hpos, hval, hmask⟩ -
    refine ⟨{ s.seq with pos := .dbWdt }, s.cycleFlag, ?_, rfl, rfl, hval, hmask⟩
    simp only [bodyStep, dataBusStep, hpos, List.append_nil]
    rfl
  · rintro s rfl ⟨hpos, hval, hmask⟩ -
    obtain ⟨q, hq, hcur, hat⟩ := dbNext_spec (s := wdtTouch s) hv hval hmask
    refine ⟨q, s.cycleFlag, ?_, hcur, hat⟩
    simp only [bodyStep, dataBusStep, hpos, hq]
    rfl

/-- The mask of one iteration. -/
def dbBits (c : Params) (v : Nat) (d e : Byte) : Byte :=
  bitUnless (d = BitVec.ofNat 8 v) 0x01 |||
  bitUnless (e &&& c.dbCmpMask = dbPerm c (BitVec.ofNat 8 v) &&& c.dbCmpMask) 0x02

/-- Iteration `v`. -/
theorem dbIteration_stretch (hv : v < 255) :
    Stretch .dataBus c 5 0 [d, e] (dbEvents c (BitVec.ofNat 8 v) d e) (DbHead v m)
      (DbHead (v + 1) (m ||| dbBits c v d e)) := by
  have hall := (dbWrite_stretch (c := c) (m := m) hv).trans
    ((dbReadBack_stretch (d := d)).trans ((dbReadPaired_stretch (e := e)).trans (dbSettle_stretch hv)))
  rwa [BitVec.or_assoc] at hall

/-- The disable, after the last iteration. -/
theorem dbDisable_turns {s : State} (hpos : s.seq.pos = .dbDisable) (hidle : s.fce.phase = .idle)
    (hcur : s.seq.cur = 3) :
    Turns 1 s { s with
      seq := { s.seq with pos := afterChecks s.seq.mask }, extEn := false
      periphTrace := s.periphTrace ++ [.extAccess false] } :=
  .body (self := .dataBus) hidle hcur true (by
    simp only [bodyStep, dataBusStep, tickStep_seq, hpos]
    rfl)

/-- The mask after one more iteration. -/
theorem dbMask_succ (r q : Nat → Byte) (n : Nat) :
    dbMask c (n + 1) r q = dbMask c n r q ||| dbBits c n (r n) (q n) := by
  have heq (n : Nat) : dbMask c n r q = loopBit (fun v => r v = BitVec.ofNat 8 v) n 0x01 |||
      loopBit (fun v => q v &&& c.dbCmpMask = dbPerm c (BitVec.ofNat 8 v) &&& c.dbCmpMask) n 0x02 := rfl
  simp only [heq, loopBit_succ, dbBits]
  ac_rfl

end

/-! ### `TwoRam` -/

section
variable {c : Params} {tick : Nat} {m key : Byte}

/-- The generator before element `k` of the sequence seeded with `key`. -/
def generatorBefore (c : Params) (key : Byte) : Nat → Byte
  | 0 => key
  | k + 1 => generated c key k

theorem crc8_generatorBefore (key : Byte) (k : Nat) : crc8 c (generatorBefore c key k) = generated c key k := by
  cases k <;> rfl

/-- The registers of a tick at `p`. -/
structure RamAt (p : SeqPos) (tick : Nat) (m : Byte) (q : Seq) : Prop where
  pos : q.pos = p
  t : q.t = tick
  mask : q.mask = m

/-- Offset `k` of a pass at `p` keyed by `key` is about to be accessed with mask `m k`, or after the last one `done`. -/
def RamPass (c : Params) (p : SeqPos) (key : Byte) (tick : Nat) (m : Nat → Byte) (done : Seq → Prop) (k : Nat) :
    Seq → Prop :=
  if k < c.ramLen then fun q => RamAt p tick (m k) q ∧ q.k = k ∧ q.g = generatorBefore c key k else done

theorem ramPass_of_lt {p : SeqPos} {mask : Nat → Byte} {done : Seq → Prop} {k : Nat} (hk : k < c.ramLen) :
    RamPass c p key tick mask done k = fun q => RamAt p tick (mask k) q ∧ q.k = k ∧ q.g = generatorBefore c key k :=
  if_pos hk

@[simp] theorem ramPass_end {p : SeqPos} {mask : Nat → Byte} {done : Seq → Prop} :
    RamPass c p key tick mask done c.ramLen = done :=
  if_neg (Nat.lt_irrefl _)

/-- A pass over the region begins at offset 0; an empty region ends it at once. -/
theorem ramLoop_spec {p next : SeqPos} {s : State} {mask : Nat → Byte} {done : Seq → Prop}
    (ht : s.seq.t = tick) (hmask : s.seq.mask = mask 0)
    (hdone : s.cfg.ramLen = 0 → ∀ q, RamAt next tick (mask 0) q → done q) :
    ∃ q, ramLoop p next (seed key s) = { s with seq := q } ∧ q.cur = s.seq.cur ∧
      RamPass s.cfg.toParams p key tick mask done 0 q := by
  have heq : ramLoop p next (seed key s) =
      goto (if 0 < s.cfg.ramLen then p else next) (s.onSeq fun q => { q with k := 0, g := key }) := rfl
  rw [heq, RamPass]
  split_ifs with h0
  · exact ⟨_, rfl, rfl, ⟨rfl, ht, hmask⟩, rfl, rfl⟩
  · exact ⟨_, rfl, rfl, hdone (by omega) _ ⟨rfl, ht, hmask⟩⟩

/-- The next offset of a pass, or what follows it. -/
theorem ramAgain_spec {p : SeqPos} {s : State} {k : Nat} {mask : Nat → Byte} {done : Seq → Prop}
    {after : State → State} (ht : s.seq.t = tick) (hmask : s.seq.mask = mask (k + 1)) (hk : s.seq.k = k)
    (hg : s.seq.g = generated s.cfg.toParams key k) (hlt : k < s.cfg.ramLen)
    (hafter : k + 1 = s.cfg.ramLen → ∃ q, after s = { s with seq := q } ∧ q.cur = s.seq.cur ∧ done q) :
    ∃ q, ramAgain p after s = { s with seq := q } ∧ q.cur = s.seq.cur ∧
      RamPass s.cfg.toParams p key tick mask done (k + 1) q := by
  subst hk
  unfold ramAgain RamPass
  split_ifs
  · exact ⟨_, rfl, rfl, ⟨rfl, ht, hmask⟩, rfl, hg⟩
  · exact hafter (by omega)

/-- `RamRead(k)` against `want`, on an answer `d`. -/
theorem ramCheck_oracle {s : State} {k : Nat} {d : Byte} {rest : List Byte} (want bit : Byte) (hk : s.seq.k = k)
    (hper : s.periph = .oracle (d :: rest)) :
    ramCheck want bit s = flagIf (d != want) bit { s with
      periph := .oracle rest, periphTrace := s.periphTrace ++ [.ramRead k d] } := by
  obtain ⟨hanswer, hafter⟩ := ramRead_oracle k d hper
  rw [ramCheck, hk, hanswer, hafter]

/-- Tick `tick` is about to be awaited, or after the last one the body's checks are done. -/
def RamHead (c : Params) (tick : Nat) (m : Byte) (q : Seq) : Prop :=
  q.pos = (if tick < c.tworamTicks then .trWait else afterChecks m) ∧ (tick < c.tworamTicks → q.t = tick) ∧
  q.mask = m

theorem ramTickAt_spec {s : State} (hc : s.cfg.toParams = c) (hmask : s.seq.mask = m) :
    ∃ q, ramTickAt tick s = { s with seq := q } ∧ q.cur = s.seq.cur ∧ RamHead c tick m q := by
  subst hc hmask
  unfold ramTickAt RamHead
  split_ifs with hlt
  · exact ⟨_, rfl, rfl, rfl, fun _ => rfl, rfl⟩
  · exact ⟨_, rfl, rfl, rfl, fun h => absurd h hlt, rfl⟩

/-- The mask before offset `k` of a pass that sets `bit` where the answers `f` differ. -/
def passMask (c : Params) (key : Byte) (f : Nat → Byte) (m bit : Byte) (k : Nat) : Byte :=
  m ||| loopBit (fun k => f k = generated c key k) k bit

theorem passMask_zero (f : Nat → Byte) (bit : Byte) : passMask c key f m bit 0 = m := by simp [passMask]

theorem passMask_succ {f : Nat → Byte} {bit : Byte} {k : Nat} {s : State}
    (hmask : s.seq.mask = passMask c key f m bit k) :
    (flagIf (f k != generated c key k) bit s).seq.mask = passMask c key f m bit (k + 1) := by
  rw [flagIf_mask, hmask, passMask, passMask, loopBit_succ, BitVec.or_assoc]

/-- The tick, and the start of the immediate pass. -/
theorem ramWait_stretch {mask : Nat → Byte} (hlt : tick < c.tworamTicks) (hm : mask 0 = m) :
    Stretch .twoRam c 1 1 [] [] (RamHead c tick m)
      (RamPass c .trImmWrite (keyImm c tick) tick mask (RamAt .trImmWdt tick (mask c.ramLen)) 0) := by
  refine .quiet ?_
  rintro s rfl ⟨hpos, ht, hmask⟩ hflag
  rw [if_pos hlt] at hpos
  obtain ⟨q, hq, hcur, hat⟩ := ramLoop_spec (p := .trImmWrite) (next := .trImmWdt) (s := consumeTick s)
    (key := keyImm s.cfg.toParams tick) (mask := mask) (done := RamAt .trImmWdt tick (mask s.cfg.ramLen)) (ht hlt)
    (hmask.trans hm.symm) fun h0 q hq => h0 ▸ hq
  refine ⟨q, false, ?_, hcur, hat⟩
  simp only [bodyStep, twoRamStep, hpos, waitTick_set _ _ hflag, ramImmediate, List.append_nil]
  rw [show (consumeTick s).seq.t = tick from ht hlt]
  exact hq

/-- The write of offset `k`, in either pass. -/
theorem ramWriteNext_spec {s : State} {k : Nat} {rest : List Byte} (hk : s.seq.k = k)
    (hg : s.seq.g = generatorBefore s.cfg.toParams key k) (hper : s.periph = .oracle rest) :
    ramWriteNext s = { s with
      seq := { s.seq with g := generated s.cfg.toParams key k }, periph := .oracle rest
      periphTrace := s.periphTrace ++ [.ramWrite k (generated s.cfg.toParams key k)] } := by
  rw [ramWriteNext, stepG, nextG, hg, crc8_generatorBefore, hk]
  exact ramWrite_oracle (s := seed _ s) _ _ hper

/-- The immediate pass: each offset written and read back at once. -/
theorem ramImmediate_stretch {x : Nat → Byte} :
    Stretch .twoRam c (c.ramLen * 2) 0 ((List.range c.ramLen).map x)
      ((List.range c.ramLen).flatMap fun k => [.ramWrite k (generated c key k), .ramRead k (x k)])
      (RamPass c .trImmWrite key tick (passMask c key x m 0x01)
        (RamAt .trImmWdt tick (passMask c key x m 0x01 c.ramLen)) 0)
      (RamAt .trImmWdt tick (passMask c key x m 0x01 c.ramLen)) := by
  let I : Nat → Seq → Prop := RamPass c .trImmWrite key tick (passMask c key x m 0x01)
    (RamAt .trImmWdt tick (passMask c key x m 0x01 c.ramLen))
  have hloop : Stretch .twoRam c (c.ramLen * (1 + 1)) (c.ramLen * (0 + 0)) _ _ (I 0) (I c.ramLen) :=
    .iterate (a := fun k => [] ++ [x k]) (e := fun k => [.ramWrite k (generated c key k)] ++ [.ramRead k (x k)])
      fun k hk => by
      simp only [I, ramPass_of_lt hk]
      refine .trans (Q := fun q => RamAt .trImmRead tick (passMask c key x m 0x01 k) q ∧ q.k = k ∧
        q.g = generated c key k) (.step ?_) (.step ?_)
      · rintro s rest rfl ⟨⟨hpos, ht, hmask⟩, hk', hg⟩ hper -
        have hstep : bodyStep .twoRam s = goto .trImmRead (ramWriteNext s) := by
          simp only [bodyStep, twoRamStep, hpos]
        rw [ramWriteNext_spec hk' hg hper] at hstep
        exact ⟨_, s.cycleFlag, hstep, rfl, ⟨rfl, ht, hmask⟩, hk', rfl⟩
      · rintro s rest rfl ⟨⟨hpos, ht, hmask⟩, hk', hg⟩ hper -
        let t : State := flagIf (x k != generated s.cfg.toParams key k) 0x01 { s with
          periph := .oracle rest, periphTrace := s.periphTrace ++ [.ramRead k (x k)] }
        have hm := passMask_succ (s := { s with
          periph := .oracle rest, periphTrace := s.periphTrace ++ [.ramRead k (x k)] }) hmask
        obtain ⟨q, hq, hcur, hat⟩ := ramAgain_spec (p := .trImmWrite) (after := goto .trImmWdt) (s := t)
          (done := RamAt .trImmWdt tick (passMask s.cfg.toParams key x m 0x01 s.cfg.ramLen)) ht hm hk' hg hk
          fun hend => ⟨_, rfl, rfl, rfl, ht, hend ▸ hm⟩
        refine ⟨q, s.cycleFlag, ?_, hcur, hat⟩
        simp only [bodyStep, twoRamStep, hpos]
        rw [ramCheck_oracle _ _ hk' hper, hg]
        exact hq
  simpa [I, List.map_eq_flatMap] using hloop

/-- The offsets of the delayed pass that are still to be read back. -/
def RamVerify (c : Params) (tick : Nat) (mask : Nat → Byte) : Nat → Seq → Prop :=
  RamPass c .trDelRead (keyDel c tick) tick mask (RamAt .trDelWdt tick (mask c.ramLen))

/-- The watchdog between the passes, and the start of the delayed pass. -/
theorem ramImmediateEnd_stretch {mask : Nat → Byte} (hm : mask 0 = m) :
    Stretch .twoRam c 1 0 [] [.wdtTouch] (RamAt .trImmWdt tick m)
      (RamPass c .trDelWrite (keyDel c tick) tick (fun _ => mask 0) (RamVerify c tick mask 0) 0) := by
  refine .quiet ?_
  rintro s rfl ⟨hpos, ht, hmask⟩ -
  obtain ⟨q, hq, hcur, hat⟩ := ramLoop_spec (p := .trDelWrite) (next := .trDelWdt) (s := wdtTouch s)
    (key := keyDel s.cfg.toParams tick) (mask := fun _ => mask 0) (done := RamVerify s.cfg.toParams tick mask 0) ht
    (hmask.trans hm.symm) fun h0 q hq => by
      change s.cfg.ramLen = 0 at h0
      rw [RamVerify, h0, RamPass, h0, if_neg (Nat.lt_irrefl 0)]
      exact hq
  refine ⟨q, s.cycleFlag, ?_, hcur, hat⟩
  simp only [bodyStep, twoRamStep, hpos, ramDelayedWrite]
  rw [show (wdtTouch s).seq.t = tick from ht]
  exact hq

/-- The delayed pass, write all. -/
theorem ramDelayedWrite_stretch {mask : Nat → Byte} :
    Stretch .twoRam c c.ramLen 0 [] ((List.range c.ramLen).map fun k => .ramWrite k (generated c (keyDel c tick) k))
      (RamPass c .trDelWrite (keyDel c tick) tick (fun _ => mask 0) (RamVerify c tick mask 0) 0)
      (RamVerify c tick mask 0) := by
  let I : Nat → Seq → Prop :=
    RamPass c .trDelWrite (keyDel c tick) tick (fun _ => mask 0) (RamVerify c tick mask 0)
  have hloop : Stretch .twoRam c c.ramLen 0 [] _ (I 0) (I c.ramLen) :=
    .iterateWrite (e := fun k => .ramWrite k (generated c (keyDel c tick) k)) fun k hk => by
      simp only [I, ramPass_of_lt hk]
      refine .step ?_
      rintro s rest rfl ⟨⟨hpos, ht, hmask⟩, hk', hg⟩ hper -
      let t : State := { s with
        seq := { s.seq with g := generated s.cfg.toParams (keyDel s.cfg.toParams tick) k }, periph := .oracle rest
        periphTrace := s.periphTrace ++ [.ramWrite k (generated s.cfg.toParams (keyDel s.cfg.toParams tick) k)] }
      obtain ⟨q, hq, hcur, hat⟩ := ramAgain_spec (p := .trDelWrite) (after := ramDelayedRead) (s := t)
        (key := keyDel s.cfg.toParams tick) (mask := fun _ => mask 0) (done := RamVerify s.cfg.toParams tick mask 0)
        ht hmask hk' rfl hk fun _ => by
          rw [ramDelayedRead, show t.seq.t = tick from ht]
          exact ramLoop_spec ht hmask fun h0 => absurd hk (by change s.cfg.ramLen = 0 at h0; omega)
      refine ⟨q, s.cycleFlag, ?_, hcur, hat⟩
      simp only [bodyStep, twoRamStep, hpos]
      rw [ramWriteNext_spec hk' hg hper]
      exact hq
  simpa [I] using hloop

/-- The delayed pass, verify all. -/
theorem ramDelayedRead_stretch {y : Nat → Byte} :
    Stretch .twoRam c c.ramLen 0 ((List.range c.ramLen).map y) ((List.range c.ramLen).map fun k => .ramRead k (y k))
      (RamVerify c tick (passMask c (keyDel c tick) y m 0x02) 0)
      (RamAt .trDelWdt tick (passMask c (keyDel c tick) y m 0x02 c.ramLen)) := by
  have hloop : Stretch .twoRam c c.ramLen 0 _ _ (RamVerify c tick (passMask c (keyDel c tick) y m 0x02) 0)
      (RamVerify c tick (passMask c (keyDel c tick) y m 0x02) c.ramLen) :=
    .iterateRead (f := y) (e := fun k => .ramRead k (y k)) fun k hk => by
      simp only [RamVerify, ramPass_of_lt hk]
      refine .step ?_
      rintro s rest rfl ⟨⟨hpos, ht, hmask⟩, hk', hg⟩ hper -
      have hg' : nextG s = generated s.cfg.toParams (keyDel s.cfg.toParams tick) k := by
        rw [nextG, hg, crc8_generatorBefore]
      let t : State := flagIf (y k != generated s.cfg.toParams (keyDel s.cfg.toParams tick) k) 0x02 { s with
        seq := { s.seq with g := generated s.cfg.toParams (keyDel s.cfg.toParams tick) k }, periph := .oracle rest
        periphTrace := s.periphTrace ++ [.ramRead k (y k)] }
      have hm := passMask_succ (s := { s with
        periph := .oracle rest, periphTrace := s.periphTrace ++ [.ramRead k (y k)] }) hmask
      obtain ⟨q, hq, hcur, hat⟩ := ramAgain_spec (p := .trDelRead) (after := goto .trDelWdt) (s := t)
        (key := keyDel s.cfg.toParams tick) (done := RamAt .trDelWdt tick
          (passMask s.cfg.toParams (keyDel s.cfg.toParams tick) y m 0x02 s.cfg.ramLen)) ht hm hk' rfl hk
        fun hend => ⟨_, rfl, rfl, rfl, ht, hend ▸ hm⟩
      refine ⟨q, s.cycleFlag, ?_, hcur, hat⟩
      simp only [bodyStep, twoRamStep, hpos]
      rw [hg', ramCheck_oracle _ _ hk' hper]
      change ramAgain _ _ (seed (nextG s) (flagIf _ _ _)) = _
      rw [hg']
      exact hq
  simpa [RamVerify] using hloop

/-- The watchdog at the end of a tick. -/
theorem ramTickEnd_stretch :
    Stretch .twoRam c 1 0 [] [.wdtTouch] (RamAt .trDelWdt tick m) (RamHead c (tick + 1) m) := by
  refine .quiet ?_
  rintro s rfl ⟨hpos, ht, hmask⟩ -
  obtain ⟨q, hq, hcur, hat⟩ := ramTickAt_spec (tick := tick + 1) (s := wdtTouch s) rfl hmask
  refine ⟨q, s.cycleFlag, ?_, hcur, hat⟩
  simp only [bodyStep, twoRamStep, hpos, ht]
  exact hq

/-- The mask of one tick. -/
def ramBits (c : Params) (t : Nat) (x y : Nat → Byte) : Byte :=
  loopBit (fun k => x k = generated c (keyImm c t) k) c.ramLen 0x01 |||
  loopBit (fun k => y k = generated c (keyDel c t) k) c.ramLen 0x02

/-- Tick `tick`: the immediate and the delayed pass. -/
theorem ramTick_stretch {x y : Nat → Byte} (hlt : tick < c.tworamTicks) :
    Stretch .twoRam c (4 * c.ramLen + 3) 1 ((List.range c.ramLen).map x ++ (List.range c.ramLen).map y)
      (ramEvents c tick x y) (RamHead c tick m) (RamHead c (tick + 1) (m ||| ramBits c tick x y)) := by
  have himm := (ramWait_stretch hlt (passMask_zero x 0x01 (m := m))).trans (ramImmediate_stretch (x := x))
  have hall := himm.trans ((ramImmediateEnd_stretch (passMask_zero (key := keyDel c tick) y 0x02)).trans
    (ramDelayedWrite_stretch.trans (ramDelayedRead_stretch.trans ramTickEnd_stretch)))
  simp only [List.nil_append, List.append_nil, Nat.add_zero, passMask, BitVec.or_assoc] at hall
  rw [show 1 + c.ramLen * 2 + (1 + (c.ramLen + (c.ramLen + 1))) = 4 * c.ramLen + 3 by omega] at hall
  simpa only [ramEvents, ramBits, List.append_assoc] using hall

/-- The mask after one more tick. -/
theorem ramMask_succ (x y : Nat → Nat → Byte) (n : Nat) :
    ramMask c (n + 1) x y = ramMask c n x y ||| ramBits c n (x n) (y n) := by
  have heq (n : Nat) : ramMask c n x y =
      loopBit (fun t => ∀ k < c.ramLen, x t k = generated c (keyImm c t) k) n 0x01 |||
      loopBit (fun t => ∀ k < c.ramLen, y t k = generated c (keyDel c t) k) n 0x02 := rfl
  simp only [heq, loopBit_succ, ramBits]
  simp only [loopBit]
  ac_rfl

end

/-! ### The obligations -/

/-- Settles O41: the entry, four repetitions, the display of the mask. -/
theorem plisRegistersBody : Obligations.PlisRegistersBody := by
  unfold Obligations.PlisRegistersBody
  rintro s a rest ⟨hcur, hp, hidle⟩ hper
  let t : State := { s with
    seq := { s.seq with outcome := .noError, mask := 0, rep := 0, pos := .plisWait }
    dispatchTrace := s.dispatchTrace ++ [2] }
  have hentry : exec .plisRegisters s = .next t :=
    (exec_body .plisRegisters s).trans (congrArg _ (bodyStep_dispatch .plisRegisters hp))
  have hloop : Stretch .plisRegisters s.cfg.toParams (4 * 42) (4 * 1) _ _
      (PlisHead 0 (plisMask s.cfg.toParams 0 a)) (PlisHead 4 (plisMask s.cfg.toParams 4 a)) :=
    .iterate (I := fun r => PlisHead r (plisMask s.cfg.toParams r a)) fun r hr => by
      rw [plisMask_succ]
      exact plisRepetition_stretch hr
  have hzero : plisMask s.cfg.toParams 0 a = 0 := by simp [plisMask]
  obtain ⟨q, hrun, hqcur, hpos, -, hmask⟩ := hloop t rest rfl hidle hcur ⟨rfl, fun _ => rfl, hzero.symm⟩ hper
  exact checkedRun hentry hidle hrun hqcur hpos hmask

/-- Settles O42: the entry, the enable, 255 iterations, the disable. -/
theorem dataBusBody : Obligations.DataBusBody := by
  unfold Obligations.DataBusBody
  rintro s r q rest ⟨hcur, hp, hidle⟩ hper
  let t : State := { s with
    seq := { s.seq with outcome := .noError, mask := 0, pos := .dbEnable }
    dispatchTrace := s.dispatchTrace ++ [3] }
  have hentry : exec .dataBus s = .next t :=
    (exec_body .dataBus s).trans (congrArg _ (bodyStep_dispatch .dataBus hp))
  let u : State := { t with
    seq := { t.seq with v := 0, pos := .dbWrite }, extEn := true, periphTrace := s.periphTrace ++ [.extAccess true] }
  have henable : Turns 1 t u := .body (self := .dataBus) hidle hcur true rfl
  have hloop : Stretch .dataBus s.cfg.toParams (255 * 5) (255 * 0) _ _
      (DbHead 0 (dbMask s.cfg.toParams 0 r q)) (DbHead 255 (dbMask s.cfg.toParams 255 r q)) :=
    .iterate (I := fun v => DbHead v (dbMask s.cfg.toParams v r q)) fun v hv => by
      rw [dbMask_succ]
      exact dbIteration_stretch hv
  have hzero : dbMask s.cfg.toParams 0 r q = 0 := by simp [dbMask]
  obtain ⟨q', hrun, hqcur, hpos, -, hmask⟩ := hloop u rest rfl hidle hcur ⟨rfl, fun _ => rfl, hzero.symm⟩ hper
  have hall := (henable.trans hrun).trans (dbDisable_turns (by simpa using hpos) hidle hqcur)
  simp only [List.append_assoc, u] at hall
  exact checkedRun (seq := { q' with pos := afterChecks q'.mask }) hentry hidle
    (by simp only [List.append_assoc]; exact hall) hqcur (congrArg afterChecks hmask) hmask

/-- Settles O43: the entry, the ticks, the display of the mask. -/
theorem twoRamBody : Obligations.TwoRamBody := by
  unfold Obligations.TwoRamBody
  rintro s x y rest ⟨hcur, hp, hidle⟩ hper
  have hzero : ramMask s.cfg.toParams 0 x y = 0 := by simp [ramMask]
  obtain ⟨q, hq, hqcur, hat⟩ := ramTickAt_spec (tick := 0) (m := ramMask s.cfg.toParams 0 x y)
    (s := { s with
      seq := { s.seq with outcome := .noError, mask := 0 }, dispatchTrace := s.dispatchTrace ++ [5] }) rfl hzero.symm
  let t : State := { s with seq := q, dispatchTrace := s.dispatchTrace ++ [5] }
  have hentry : exec .twoRam s = .next t :=
    (exec_body .twoRam s).trans (congrArg _ ((bodyStep_dispatch .twoRam hp).trans hq))
  have hloop : Stretch .twoRam s.cfg.toParams (s.cfg.tworamTicks * (4 * s.cfg.ramLen + 3)) (s.cfg.tworamTicks * 1) _ _
      (RamHead s.cfg.toParams 0 (ramMask s.cfg.toParams 0 x y))
      (RamHead s.cfg.toParams s.cfg.tworamTicks (ramMask s.cfg.toParams s.cfg.tworamTicks x y)) :=
    .iterate (I := fun t => RamHead s.cfg.toParams t (ramMask s.cfg.toParams t x y)) fun t ht => by
      rw [ramMask_succ]
      exact ramTick_stretch ht
  obtain ⟨q', hrun, hqcur', hpos, -, hmask⟩ := hloop t rest rfl hidle (hqcur.trans hcur) hat hper
  rw [if_neg (Nat.lt_irrefl _)] at hpos
  rw [Nat.mul_one] at hrun
  exact checkedRun hentry hidle hrun hqcur' hpos hmask

end Sys2Proof.Machine
end

section
/-! PROOFS. The body `Fram` (R162), place by place. -/

namespace Sys2Proof.Machine

section
variable {s : State}

theorem exec_fram (s : State) : exec .fram s = .next (framStep s) := rfl

/-! ### Requests from the body (R153) -/

theorem acceptIdentify_eq (o : Operands) (h : s.fce.phase = .idle) :
    acceptIdentify o s = { s with fce := acceptance s.cfg.toParams 0x01 o s.fce } :=
  Host.Outcome.next.inj (identify_idle o s h)

theorem acceptEraseBlock_eq (o : Operands) (h : s.fce.phase = .idle) :
    acceptEraseBlock o s = { s with fce := acceptance s.cfg.toParams 0x02 o s.fce } :=
  Host.Outcome.next.inj (eraseBlock_idle o s h)

theorem acceptProgramByte_eq (o : Operands) (h : s.fce.phase = .idle) :
    acceptProgramByte o s = { s with fce := acceptance s.cfg.toParams 0x03 o s.fce } :=
  Host.Outcome.next.inj (programByte_idle o s h)

theorem acceptRead_eq (o : Operands) (h : s.fce.phase = .idle) :
    acceptRead o s = { s with fce := acceptance s.cfg.toParams 0x05 o s.fce } :=
  Host.Outcome.next.inj (read_idle o s h)

theorem acceptReset_eq (o : Operands) (h : s.fce.phase = .idle) :
    acceptReset o s = { s with fce := acceptance s.cfg.toParams 0x06 o s.fce } :=
  Host.Outcome.next.inj (reset_idle o s h)

/-! ### The flags of the body -/

theorem flagIf_ne {α : Type} [BEq α] [LawfulBEq α] (x y : α) [Decidable (x = y)] (bit : Byte) (s : State) :
    flagIf (x != y) bit s = if x = y then s else s.onSeq fun q => { q with mask := q.mask ||| bit } := by
  by_cases h : x = y <;> simp [flagIf, h, State.onSeq]

theorem framAbortIf_ne {α : Type} [BEq α] [LawfulBEq α] (x y : α) [Decidable (x = y)] (bit : Byte) (s : State) :
    framAbortIf (x != y) bit s =
      if x = y then s else s.onSeq fun q => { q with mask := q.mask ||| bit, abort := true } := by
  by_cases h : x = y <;> simp [framAbortIf, flagIf, h, State.onSeq]

theorem framMore_iff : framMore s = true ↔
    s.seq.abort = false ∧ s.seq.k + 1 < blockSize s.cfg.toParams s.seq.b.toNat := by
  rw [framMore, Bool.and_eq_true, Bool.not_eq_true', decide_eq_true_iff, framBlock]

/-! ### The next block with a byte (log 41) -/

theorem nextBlockWithBytes_eq_some {c : Params} {lo x : Nat} (hlo : lo ≤ x) (hx : x < c.numBlocks)
    (hsize : 0 < blockSize c x) (hempty : ∀ y, lo ≤ y → y < x → blockSize c y = 0) :
    nextBlockWithBytes c lo = some x := by
  rw [nextBlockWithBytes, List.find?_range_eq_some]
  refine ⟨by simp [hlo, hsize], by simpa using hx, fun y hy => ?_⟩
  simp only [Bool.not_eq_true', decide_eq_false_iff_not, not_and, not_lt, Nat.le_zero]
  exact fun hly => hempty y hly hy

theorem nextBlockWithBytes_eq_none {c : Params} {lo : Nat}
    (hempty : ∀ y, lo ≤ y → y < c.numBlocks → blockSize c y = 0) : nextBlockWithBytes c lo = none := by
  rw [nextBlockWithBytes, List.find?_range_eq_none]
  intro y hy
  simp only [Bool.not_eq_true', decide_eq_false_iff_not, not_and, not_lt, Nat.le_zero]
  exact fun hly => hempty y hly hy

theorem framVerifyBlock_some {lo x : Nat} (h : nextBlockWithBytes s.cfg.toParams lo = some x) :
    framVerifyBlock lo s = framBlockAt x .frVerify s := by
  rw [framVerifyBlock, h]

theorem framVerifyBlock_none {lo : Nat} (h : nextBlockWithBytes s.cfg.toParams lo = none) :
    framVerifyBlock lo s = goto .frDisable s := by
  rw [framVerifyBlock, h]

/-! ### The window and the requests -/

theorem framStep_enable (hp : s.seq.pos = .frEnable) :
    framStep s = { s with
      seq := { s.seq with pos := .frIdentify }, winEn := true
      periphTrace := s.periphTrace ++ [.flashWindow true] } := by
  simp only [framStep, hp]
  rfl

theorem framStep_disable (hp : s.seq.pos = .frDisable) :
    framStep s = { s with
      seq := { s.seq with pos := afterChecks s.seq.mask }, winEn := false
      periphTrace := s.periphTrace ++ [.flashWindow false] } := by
  simp only [framStep, hp]
  rfl

/-- `s` with its body gone on to `q` and a request presented to FCE (R121). -/
def State.requested (s : State) (op : Byte) (o : Operands) (q : Seq) : State :=
  { s with seq := q, fce := acceptance s.cfg.toParams op o s.fce }

theorem framStep_identify (hp : s.seq.pos = .frIdentify) (hidle : s.fce.phase = .idle) :
    framStep s = s.requested 0x01 noOperands { s.seq with pos := .frIdentifyDone } := by
  simp only [framStep, hp]
  exact acceptIdentify_eq _ hidle

theorem framStep_erase (hp : s.seq.pos = .frErase) (hidle : s.fce.phase = .idle) :
    framStep s = s.requested 0x02 ⟨s.seq.b, 0, 0, 0⟩ { s.seq with pos := .frEraseDone } := by
  simp only [framStep, hp]
  exact acceptEraseBlock_eq _ hidle

theorem framStep_program (hp : s.seq.pos = .frProgram) (hidle : s.fce.phase = .idle) :
    framStep s = s.requested 0x03 ⟨0, framAddress s, nextG s, 0⟩ { s.seq with g := nextG s, pos := .frProgramDone } := by
  simp only [framStep, hp]
  exact acceptProgramByte_eq _ hidle

theorem framStep_read (hp : s.seq.pos = .frRead) (hidle : s.fce.phase = .idle) :
    framStep s = s.requested 0x05 ⟨0, framAddress s, 0, 0⟩ { s.seq with pos := .frReadDone } := by
  simp only [framStep, hp]
  exact acceptRead_eq _ hidle

theorem framStep_batchReset (hp : s.seq.pos = .frBatchReset) (hidle : s.fce.phase = .idle) :
    framStep s = s.requested 0x06 noOperands { s.seq with pos := .frBatchResetDone } := by
  simp only [framStep, hp]
  exact acceptReset_eq _ hidle

theorem framStep_verify (hp : s.seq.pos = .frVerify) (hidle : s.fce.phase = .idle) :
    framStep s = s.requested 0x05 ⟨0, framAddress s, 0, 0⟩ { s.seq with g := nextG s, pos := .frVerifyDone } := by
  simp only [framStep, hp]
  exact acceptRead_eq _ hidle

/-! ### What follows a request that is done -/

theorem framStep_identifyDone (hp : s.seq.pos = .frIdentifyDone) (hdone : s.fce.done = true) :
    framStep s = { s with seq :=
      if s.fce.result = .ok then { s.seq with b := 0, pos := .frErase }
      else { s.seq with mask := s.seq.mask ||| 0x08, pos := .frDisable } } := by
  simp only [framStep, hp, whenDone_set _ _ hdone, framIdentified]
  split_ifs <;> rfl

theorem framStep_eraseDone (hp : s.seq.pos = .frEraseDone) (hdone : s.fce.done = true) :
    framStep s = { s with seq :=
      if s.fce.result = .ok then { s.seq with pos := .frEraseWdt }
      else { s.seq with mask := s.seq.mask ||| 0x01, pos := .frEraseWdt } } := by
  simp only [framStep, hp, whenDone_set _ _ hdone, flagIf_ne]
  split_ifs <;> rfl

theorem framStep_programDone (hp : s.seq.pos = .frProgramDone) (hdone : s.fce.done = true) :
    framStep s = { s with seq :=
      if s.fce.result = .ok then { s.seq with pos := .frRead }
      else { s.seq with mask := s.seq.mask ||| 0x02, abort := true, pos := .frWriteWdt } } := by
  simp only [framStep, hp, whenDone_set _ _ hdone, framProgrammed, framAbortIf_ne, bne_iff_ne, ne_eq, ite_not]
  split_ifs <;> rfl

theorem framStep_readDone (hp : s.seq.pos = .frReadDone) (hdone : s.fce.done = true) :
    framStep s = { s with seq :=
      if s.fce.rdata = s.seq.g then { s.seq with pos := .frWriteWdt }
      else { s.seq with mask := s.seq.mask ||| 0x02, abort := true, pos := .frWriteWdt } } := by
  simp only [framStep, hp, whenDone_set _ _ hdone, framAbortIf_ne, State.onSeq]
  split_ifs <;> rfl

theorem framStep_verifyDone (hp : s.seq.pos = .frVerifyDone) (hdone : s.fce.done = true) :
    framStep s = { s with seq :=
      if s.fce.rdata = s.seq.g then { s.seq with pos := .frVerifyWdt }
      else { s.seq with mask := s.seq.mask ||| 0x04, abort := true, pos := .frVerifyWdt } } := by
  simp only [framStep, hp, whenDone_set _ _ hdone, framAbortIf_ne, State.onSeq]
  split_ifs <;> rfl

theorem framStep_batchResetDone (hp : s.seq.pos = .frBatchResetDone) (hdone : s.fce.done = true) :
    framStep s =
      if s.seq.b.toNat + 1 < s.cfg.numBlocks then framWriteBlock (s.seq.b.toNat + 1) s else framVerifyBlock 0 s := by
  simp only [framStep, hp, whenDone_set _ _ hdone]
  rfl

/-! ### The watchdog touches -/

theorem framStep_eraseWdt (hp : s.seq.pos = .frEraseWdt) :
    framStep s =
      if s.seq.b.toNat + 1 < s.cfg.numBlocks then
        (wdtTouch s).onSeq fun q => { q with b := q.b + 1, pos := .frErase }
      else framWriteBlock 0 (wdtTouch s) := by
  simp only [framStep, hp]
  rfl

theorem framStep_writeWdt (hp : s.seq.pos = .frWriteWdt) :
    framStep s =
      if s.seq.abort = false ∧ s.seq.k + 1 < blockSize s.cfg.toParams s.seq.b.toNat then
        (wdtTouch s).onSeq fun q => { q with k := q.k + 1, pos := .frProgram }
      else goto .frBatchReset (wdtTouch s) := by
  simp only [framStep, hp, framWritten, framMore_iff]
  rfl

theorem framStep_verifyWdt (hp : s.seq.pos = .frVerifyWdt) :
    framStep s =
      if s.seq.abort = false ∧ s.seq.k + 1 < blockSize s.cfg.toParams s.seq.b.toNat then
        (wdtTouch s).onSeq fun q => { q with k := q.k + 1, pos := .frVerify }
      else framVerifyBlock (s.seq.b.toNat + 1) (wdtTouch s) := by
  simp only [framStep, hp, framVerified, framMore_iff]
  rfl

end

/-! ### The obligation -/

/-- Settles O46, place by place. -/
theorem framBody : Obligations.FramBody := by
  unfold Obligations.FramBody
  intro s
  simp only [exec_fram, Host.Outcome.next.injEq]
  refine ⟨bodyStep_dispatch .fram, framStep_enable, framStep_disable, fun hidle => ?requests, fun hdone => ?answers,
    fun hp hlt => ?_, fun hp hge => ?_, fun hp => ?_, fun hp hmore => ?_, fun hp hmore => ?_⟩
  case requests =>
    exact ⟨(framStep_identify · hidle), (framStep_erase · hidle), (framStep_program · hidle),
      (framStep_read · hidle), (framStep_batchReset · hidle), (framStep_verify · hidle)⟩
  case answers =>
    refine ⟨(framStep_identifyDone · hdone), (framStep_eraseDone · hdone), (framStep_programDone · hdone),
      (framStep_readDone · hdone), (framStep_verifyDone · hdone), fun hp hlt => ?_, fun hp hge => ?_⟩
    · rw [framStep_batchResetDone hp hdone, if_pos hlt]
      rfl
    · rw [framStep_batchResetDone hp hdone, if_neg (Nat.not_lt.2 hge)]
      exact ⟨fun x ⟨hlo, hx, hsize, hempty⟩ => framVerifyBlock_some (nextBlockWithBytes_eq_some hlo hx hsize hempty),
        fun hempty => framVerifyBlock_none (nextBlockWithBytes_eq_none hempty)⟩
  · rw [framStep_eraseWdt hp, if_pos hlt]
    rfl
  · rw [framStep_eraseWdt hp, if_neg (Nat.not_lt.2 hge)]
    rfl
  · rw [framStep_writeWdt hp]
    split_ifs <;> rfl
  · rw [framStep_verifyWdt hp, if_pos hmore]
    rfl
  · rw [framStep_verifyWdt hp, if_neg hmore]
    exact ⟨fun x ⟨hlo, hx, hsize, hempty⟩ =>
        framVerifyBlock_some (s := wdtTouch s) (nextBlockWithBytes_eq_some hlo hx hsize hempty),
      fun hempty => framVerifyBlock_none (s := wdtTouch s) (nextBlockWithBytes_eq_none hempty)⟩

end Sys2Proof.Machine
end

section
/-! PROOFS. Turns of the core while FCE runs a request of `Fram`, and `Fram` against a device with the wrong identity
(R162). -/

namespace Sys2Proof.Machine

section
variable {s t u : State} {n : Nat} {events : List BusEvent}

/-! ### FCE's steps as turns of the core -/

/-- FCE's steps are turns of the core while each of them makes a bus cycle. -/
theorem coreRun_of_fceRun (hrun : fceRun n s = .next u) (hflag : s.cycleFlag = true)
    (hcycles : u.busTrace.length = s.busTrace.length + n) : coreRun n s = .next u := by
  induction n generalizing s with
  | zero => exact hrun
  | succ n ih =>
    by_cases hidle : s.fce.phase = .idle
    · obtain rfl : s = u := Host.Outcome.next.inj ((fceRun_idle hidle _).symm.trans hrun)
      omega
    · have hturn : coreTurn s = fceStep s := by
        rw [coreTurn, show tickStep s = s by rw [tickStep, ← hflag], core_busy s hidle]
      cases hstep : fceStep s with
      | next t =>
        obtain ⟨e, fce, dev, draws, rfl⟩ := (fceStep_row hidle hstep).fceOnly
        rw [coreRun_succ _ _ _ (hturn.trans hstep)]
        rw [fceRun, hstep] at hrun
        refine ih hrun hflag ?_
        rw [hcycles, List.length_append, List.length_singleton]
        omega
      | fault r | refused r => simp [fceRun, hstep] at hrun

/-- The turn in which `Fram` presents a request, and those in which FCE runs it. -/
theorem request_turns {op : Byte} {o : Operands} {q : Seq} {i : Instr} (hidle : s.fce.phase = .idle)
    (hcur : s.seq.cur = 4) (hstep : framStep (tickStep s) = (tickStep s).requested op o q)
    (hexec : exec i { tickStep s with seq := q } = .next ((tickStep s).requested op o q))
    (h : Completes i { tickStep s with seq := q } events u) : Turns (1 + events.length) s u := by
  obtain ⟨t, hexec', hrun, honly, -⟩ := h
  obtain rfl : t = _ := Host.Outcome.next.inj (hexec'.symm.trans hexec)
  have hfirst : coreRun 1 s = .next ((tickStep s).requested op o q) := by
    rw [coreRun_succ _ _ _ (coreTurn_body (self := .fram) hidle hcur)]
    exact congrArg _ hstep
  obtain ⟨fce, dev, draws, rfl⟩ := honly
  refine ⟨true, ?_⟩
  rw [coreRun_add _ _ _ _ hfirst]
  exact coreRun_of_fceRun hrun rfl (List.length_append ..)

/-- A turn of `Fram`. -/
theorem Turns.fram (hidle : s.fce.phase = .idle) (hcur : s.seq.cur = 4)
    (h : framStep (tickStep s) = t) : Turns 1 s t :=
  .body (self := .fram) hidle hcur t.cycleFlag h

/-! ### A script of answers behind an enabled window -/

/-- The bytes the loads of a bus trace were answered, in order. -/
def loadAnswers (events : List BusEvent) : List Byte :=
  events.filterMap fun
    | .r _ d => some d
    | .w _ _ => none

/-- A bus cycle before a run that is answered from the script. -/
theorem BusCall.oracle {v : State} {answers : List Byte} (hcall : BusCall s v) (hwin : s.winEn = true)
    (hdev : s.dev = .oracle answers) (hrest : ∀ answers', v.winEn = true → v.dev = .oracle answers' →
      ∃ events, u.busTrace = v.busTrace ++ events ∧
        ((loadAnswers events).length ≤ answers'.length → ∃ rest, answers' = loadAnswers events ++ rest)) :
    ∃ events, u.busTrace = s.busTrace ++ events ∧
      ((loadAnswers events).length ≤ answers.length → ∃ rest, answers = loadAnswers events ++ rest) := by
  cases hcall with
  | store a d =>
    obtain ⟨events, htrace, hanswers⟩ := hrest answers (by simpa using hwin) (by simp [hwin, hdev, Device.store])
    exact ⟨.w a d :: events, by simp [htrace], hanswers⟩
  | load a =>
    cases answers with
    | nil =>
      obtain ⟨events, htrace, -⟩ := hrest [] (by simpa using hwin) (by simp [hwin, hdev, devAfterLoad, State.countDraw])
      exact ⟨.r a (devAnswer a s) :: events, by simp [htrace], fun henough => by simp [loadAnswers] at henough⟩
    | cons d rest =>
      obtain ⟨events, htrace, hanswers⟩ := hrest rest (by simpa using hwin) (by simp [hwin, hdev, devAfterLoad])
      refine ⟨.r a d :: events, by simp [htrace, devAnswer, hwin, hdev], fun henough => ?_⟩
      obtain ⟨rest', rfl⟩ := hanswers (by simpa [loadAnswers] using henough)
      exact ⟨rest', rfl⟩

/-- The loads of FCE's steps are answered from the script, in order. -/
theorem fceRun_oracle {answers : List Byte} (hrun : fceRun n s = .next u) (hwin : s.winEn = true)
    (hdev : s.dev = .oracle answers) : ∃ events, u.busTrace = s.busTrace ++ events ∧
      ((loadAnswers events).length ≤ answers.length → ∃ rest, answers = loadAnswers events ++ rest) := by
  induction n generalizing s answers with
  | zero =>
    obtain rfl : s = u := Host.Outcome.next.inj hrun
    exact ⟨[], (List.append_nil _).symm, fun _ => ⟨answers, rfl⟩⟩
  | succ n ih =>
    by_cases hidle : s.fce.phase = .idle
    · obtain rfl : s = u := Host.Outcome.next.inj ((fceRun_idle hidle _).symm.trans hrun)
      exact ⟨[], (List.append_nil _).symm, fun _ => ⟨answers, rfl⟩⟩
    · cases hstep : fceStep s with
      | next t =>
        rw [fceRun, hstep] at hrun
        obtain ⟨v, f, hcall, -, rfl⟩ := fceStep_row hidle hstep
        change fceRun n { v with fce := f } = _ at hrun
        exact hcall.oracle hwin hdev fun answers' hwin' hdev' => ih (s := { v with fce := f }) hrun hwin' hdev'
      | fault r | refused r => simp [fceRun, hstep] at hrun

/-- The bus cycles of an `IDENTIFY` answered `m` and `d` (R128). -/
def identifyEvents (c : Params) (m d : Byte) : List BusEvent :=
  [.w 0xAAA 0xAA, .w 0x555 0x55, .w 0xAAA 0x90, .r c.idMfrOffset m, .r c.idDevOffset d, .w 0xAAA 0xAA, .w 0x555 0x55,
    .w 0xAAA 0xF0]

/-- `IDENTIFY` against a script is answered its first two bytes (R128). -/
theorem identify_scripted {o : Operands} {m d : Byte} {rest : List Byte} (hidle : s.fce.phase = .idle)
    (hwin : s.winEn = true) (hdev : s.dev = .oracle (m :: d :: rest))
    (hwrong : ¬(m = s.cfg.manufacturer ∧ d = s.cfg.deviceCode)) :
    ∃ u, Completes (.identify o) s (identifyEvents s.cfg.toParams m d) u ∧ u.fce.idValid = false ∧
      u.fce.result = .identityMismatch := by
  obtain ⟨m', d', u, hcompletes, hfce⟩ := identifyOperation o s hidle
  obtain ⟨rfl, rfl⟩ : m' = m ∧ d' = d := by
    obtain ⟨t, hexec, hrun, ⟨_, _, _, rfl⟩, -⟩ := hcompletes
    obtain rfl : t = _ := Host.Outcome.next.inj (hexec.symm.trans (identify_idle o s hidle))
    obtain ⟨events, htrace, hanswers⟩ := fceRun_oracle hrun hwin hdev
    obtain rfl := List.append_cancel_left htrace
    obtain ⟨rest', h⟩ := hanswers (by simp [loadAnswers])
    obtain ⟨hm, hd, -⟩ : m = m' ∧ d = d' ∧ rest = rest' := by simpa [loadAnswers] using h
    exact ⟨hm.symm, hd.symm⟩
  exact ⟨u, hcompletes, by simp [hfce, hwrong], by simp [hfce, hwrong, Fce.ended]⟩

end

/-- Settles O47: `IDENTIFY` is answered the wrong pair, and the body goes straight to the disable. -/
theorem framRefusesTheWrongDevice : Obligations.FramRefusesTheWrongDevice := by
  unfold Obligations.FramRefusesTheWrongDevice
  rintro s m d rest ⟨hcur, hp, hidle⟩ hdev hwrong
  let t : State := { s with
    seq := { s.seq with outcome := .noError, mask := 0, pos := .frEnable }, dispatchTrace := s.dispatchTrace ++ [4] }
  have hentry : exec .fram s = .next t :=
    (exec_body .fram s).trans (congrArg _ (bodyStep_dispatch .fram hp))
  have henable := Turns.fram (s := t) hidle hcur (framStep_enable rfl)
  let q : Seq := { t.seq with pos := .frIdentifyDone }
  let v : State := { tickStep t with winEn := true, periphTrace := s.periphTrace ++ [.flashWindow true], seq := q }
  obtain ⟨u, hcompletes, hid, hresult⟩ := identify_scripted (s := v) (o := noOperands) hidle rfl hdev hwrong
  have hrequest := request_turns (s := { v with seq := { q with pos := .frIdentify } }) hidle hcur
    (framStep_identify rfl hidle) (identify_idle _ _ hidle) hcompletes
  obtain ⟨-, -, -, ⟨fce, dev, draws, rfl⟩, hidle', hdone⟩ := hcompletes
  let w : State := { v with
    fce := fce, dev := dev, draws := draws, busTrace := s.busTrace ++ identifyEvents s.cfg.toParams m d
    seq := { q with mask := 0 ||| 0x08, pos := .frDisable } }
  have hanswer : Turns 1 _ w := .fram hidle' hcur ((framStep_identifyDone rfl hdone).trans (by
    rw [if_neg (fun hok => ResultCode.noConfusion (hok.symm.trans hresult))]
    rfl))
  obtain ⟨flag, hrun⟩ := ((henable.trans hrequest).trans hanswer).trans
    (Turns.fram hidle' hcur (framStep_disable rfl))
  exact ⟨t, _, hentry, hrun, rfl, rfl, rfl, rfl, hid, hresult, rfl, rfl⟩

end Sys2Proof.Machine
end

section
/-! PROOFS. `Fram` on a healthy reference board (R162): each request of the body on a reference device that has no busy
loads, the three passes over the block table, and the body from its dispatch to its return. -/

namespace Sys2Proof.Machine

/-! ### A healthy device: in read mode, with no busy loads and no failing erase to come (R75 to R78) -/

namespace RefDev

/-- The device is in read mode with this array, no command begun, and every draw to come is the default one. -/
structure Healthy (arr : Memory) (r : RefDev) : Prop extends Reads arr r where
  opDraws : r.opDraws = []

section
variable {c : Params} {r r' : RefDev} {arr : Memory} {a : Nat} {d : Byte}

/-- No load begins a command or uses up a draw. -/
theorem load_keeps (h : r.load c a = (d, r')) : r'.cpos = r.cpos ∧ r'.opDraws = r.opDraws := by
  obtain rfl : (r.load c a).2 = r' := congrArg Prod.snd h
  unfold load loadProg loadErase
  dsimp only
  split
  case h_3 | h_5 => split_ifs <;> exact ⟨rfl, rfl⟩
  all_goals exact ⟨rfl, rfl⟩

theorem Healthy.currentDraws (h : r.Healthy arr) : r.currentDraws = {} := by
  rw [RefDev.currentDraws, h.opDraws, List.headD_nil]

theorem Healthy.readMode (h : r.Healthy arr) : { r with mode := .read } = r := by rw [← h.mode]

/-- A load that leaves the device in read mode leaves it healthy. -/
theorem Healthy.of_load {arr' : Memory} (hload : r.load c a = (d, r')) (hmode : r'.mode = .read) (harr : r'.arr = arr')
    (hcpos : r.cpos = .p0) (hdraws : r.opDraws = []) : r'.Healthy arr' := by
  obtain ⟨hcpos', hdraws'⟩ := load_keeps hload
  exact { mode := hmode, cpos := hcpos'.trans hcpos, arr := harr, opDraws := hdraws'.trans hdraws }

end
end RefDev

/-! ### The requests of the body on a healthy device -/

section
variable {s : State} {f : Fce} {r : RefDev} {arr : Memory}

/-- `IDENTIFY` on a device with the right codes (R128). -/
theorem identify_healthy (hwin : s.winEn = true) (h : r.Healthy arr) (hmfr : r.simMfr = s.cfg.manufacturer)
    (hdev : r.simDev = s.cfg.deviceCode) :
    ∃ g, Leads s (f.goTo .as1) r (Fce.ended .ok g) r ∧ g.idValid = true := by
  let auto : RefDev := { r with mode := .autosel }
  have hauto {p : Phase} {r : RefDev} (hp : ∀ before, phaseCommand (onDevice s (f.goTo p) r before) = some .seqAutoselect)
      (before : List BusEvent) : RunsItsRow (onDevice s (f.goTo p) r before) := autoselect_runsItsRow (hp before)
  have hcommand : Drives s (f.goTo .as1) r (wireEvents .seqAutoselect) (f.goTo .idr1)
      (r.storeAll s.cfg.toParams (cyclesOf .seqAutoselect)) :=
    .storeTo .as2 hwin (hauto fun _ => rfl) (fun _ => rfl) (fun _ => rfl) <|
    .storeTo .as3 hwin (hauto fun _ => rfl) (fun _ => rfl) (fun _ => rfl) <|
    .storeTo .idr1 hwin (hauto fun _ => rfl) (fun _ => rfl) (fun _ => rfl) (.refl _ _ _)
  rw [RefDev.storeAll_seqAutoselect (.inl h.mode) h.cpos] at hcommand
  obtain ⟨-, -, ⟨-, -, hoffsets, -⟩, -⟩ := cfgOk s.cfg
  obtain ⟨hloadMfr, hloadDev⟩ := RefDev.load_autosel (c := s.cfg.toParams) (r := auto) hoffsets rfl
  have hfirst : Drives s (f.goTo .idr1) auto _ _ auto :=
    .of_load hwin hloadMfr (fun _ => idr1_runsItsRow rfl) rfl rfl
  have hsecond : Drives s (rowNext s.cfg.toParams (f.goTo .idr1) auto.simMfr) auto _ _ auto :=
    .of_load hwin hloadDev (fun _ => idr2_runsItsRow rfl) rfl rfl
  have hnext : rowNext s.cfg.toParams (rowNext s.cfg.toParams (f.goTo .idr1) auto.simMfr) auto.simDev =
      Fce.resetting 1 .ok { f with idMfr := r.simMfr, idDev := r.simDev, idValid := true } := if_pos ⟨hmfr, hdev⟩
  rw [hnext] at hsecond
  have hback : auto.storeAll s.cfg.toParams (cyclesOf .seqReset) = r :=
    (RefDev.storeAll_seqReset (r := auto) (.inr rfl) h.cpos).trans h.readMode
  exact ⟨_, (hcommand.trans (hfirst.trans (hsecond.trans (hback ▸ seqReset_drives hwin .ok auto)))).leads, rfl⟩

/-- `ERASE_BLOCK` of a block that has bytes (R129). -/
theorem erase_healthy (hwin : s.winEn = true) (h : r.Healthy arr) (herasing : f.erasing s.cfg.toParams)
    (hsize : 0 < blockSize s.cfg.toParams f.blk.toNat) :
    ∃ g r', Leads s (f.goTo .er1) r (Fce.ended .ok g) r' ∧ g.idValid = true ∧
      r'.Healthy (RefDev.erasedArray s.cfg.toParams f.blk.toNat arr) := by
  have ⟨hop, hblk, hid⟩ := herasing
  have hcommand := (seqBlockErase_drives hwin herasing rfl r).leads
  rw [RefDev.storeAll_seqBlockErase (.inl h.mode) h.cpos (blockHolding_blockOffset _ hblk hsize)] at hcommand
  let g : Fce := { f with paddr := blockOffset s.cfg.toParams f.blk.toNat, exp := 0xFF }
  have hpolling : g.polling s.cfg.toParams := .inl ⟨herasing, rfl, rfl⟩
  have herases : (r.startErase f.blk.toNat).Erases arr f.blk.toNat :=
    h.arr ▸ RefDev.startErase_erases (by rw [h.currentDraws])
  obtain ⟨r', hload, hreads⟩ := herases.load_last (c := s.cfg.toParams) (a := blockOffset s.cfg.toParams f.blk.toNat)
    (by simp [RefDev.startErase, h.currentDraws])
  have hhealthy := RefDev.Healthy.of_load hload hreads.mode hreads.arr rfl (by simp [RefDev.startErase, h.opDraws])
  rw [RefDev.erasedArray_offset hsize] at hload
  have hstart := dq3_starts (f := g) hwin (polling_lt hpolling) hload rfl f.s1 0
  have hagain := hreads.load (c := s.cfg.toParams) (a := blockOffset s.cfg.toParams f.blk.toNat)
  rw [RefDev.erasedArray_offset hsize] at hagain
  have hexit := pl1_succeeds (f := g) hwin hpolling hagain (statusDone_self _) 0xFF 0
  rw [pollExit, if_pos (by exact hop)] at hexit
  have hall := (hcommand.trans (hstart.trans hexit)).thenReset hwin (.inl hreads.mode) hreads.cpos
  rw [hhealthy.readMode] at hall
  exact ⟨_, _, hall, hid, hhealthy⟩

/-- `PROGRAM_BYTE` of a value that needs no bit raised (R130). -/
theorem program_healthy (hwin : s.winEn = true) (h : r.Healthy arr) (hop : f.op = 0x03) (hidx : f.idx = 0)
    (hid : f.idValid = true) (haddr : f.addr < s.cfg.flashSize)
    (hprogrammable : Contract.programmable (arr.read f.addr) f.val) :
    ∃ g r', Leads s (f.goTo .pg1) r (Fce.ended .ok g) r' ∧ g.idValid = true ∧ r'.Healthy (arr.write f.addr f.val) := by
  obtain ⟨hprogramming, hcycle⟩ := programming_of_byte (c := s.cfg.toParams) hop hidx hid haddr
  have hcommand := (seqProgram_drives hwin hprogramming hcycle r).leads
  rw [RefDev.storeAll_seqProgram (.inl h.mode) h.cpos] at hcommand
  have hpolling : Fce.polling s.cfg.toParams { f with paddr := f.addr, exp := f.val } :=
    .inr ⟨hprogramming, congrArg Cycle.offset hcycle.symm⟩
  have hprograms := RefDev.startProgram_programs (h.arr ▸ hprogrammable)
  rw [h.currentDraws, h.arr] at hprograms
  obtain ⟨r', hload, hmode, harr⟩ := hprograms.load_last (c := s.cfg.toParams)
  have hhealthy := RefDev.Healthy.of_load hload hmode harr rfl (by simp [RefDev.startProgram, h.opDraws])
  have hexit := pl1_succeeds hwin hpolling hload (statusDone_self _) f.s1 0
  rw [pollExit, if_neg (by simp [Fce.spinAt, hop]), if_pos (by exact hop)] at hexit
  exact ⟨_, _, hcommand.trans hexit, hid, hhealthy⟩

/-- `READ` (R132). -/
theorem read_healthy (hwin : s.winEn = true) (h : r.Healthy arr) (haddr : f.addr < s.cfg.flashSize) :
    Leads s (f.goTo .rd) r (Fce.ended .ok { f with rdata := arr.read f.addr }) r :=
  (Drives.of_load (f := f.goTo .rd) hwin h.load (fun _ => rd_runsItsRow rfl haddr) rfl rfl).leads

/-- `RESET` (R133). -/
theorem reset_healthy (hwin : s.winEn = true) (h : r.Healthy arr) :
    Leads s (f.resetting 1 .ok) r (Fce.ended .ok { f with rsLeft := 0, res := .ok }) r := by
  have hreset := (seqReset_drives (f := f) hwin .ok r).leads
  rwa [RefDev.storeAll_seqReset (.inl h.mode) h.cpos, h.readMode] at hreset

end

end Sys2Proof.Machine
end

section
/-! PROOFS. `Fram` on a healthy reference board (R162): the three passes over the block table, and the body from its
dispatch to its return. -/

namespace Sys2Proof.Machine

/-! ### What the turns of the core bring about -/

/-- From every state that meets `P` some turns, each with a tick at hand, lead to a state that meets `Q`. -/
def Brings (P Q : State → Prop) : Prop := ∀ s, P s → ∃ n t, Turns n s t ∧ Q t

section
variable {P Q R : State → Prop}

theorem Brings.of_imp (h : ∀ s, P s → Q s) : Brings P Q := fun s hs => ⟨0, s, .refl s, h s hs⟩

theorem Brings.trans (h : Brings P Q) (h' : Brings Q R) : Brings P R := fun s hs => by
  obtain ⟨m, t, hrun, ht⟩ := h s hs
  obtain ⟨n, u, hrun', hu⟩ := h' t ht
  exact ⟨m + n, u, hrun.trans hrun', hu⟩

/-- A loop of `n` iterations with invariant `I`. -/
theorem Brings.iterate {I : Nat → State → Prop} {n : Nat} (h : ∀ k < n, Brings (I k) (I (k + 1))) :
    Brings (I 0) (I n) := by
  induction n with
  | zero => exact .of_imp fun _ hs => hs
  | succ n ih => exact (ih fun k hk => h k (by omega)).trans (h n (by omega))

/-- One turn of `Fram`. -/
theorem Brings.turn (h : ∀ s, P s → s.fce.phase = .idle ∧ s.seq.cur = 4 ∧ Q (framStep (tickStep s))) :
    Brings P Q := fun s hs => by
  obtain ⟨hidle, hcur, ht⟩ := h s hs
  exact ⟨1, _, .fram hidle hcur rfl, ht⟩

end

/-! ### The board -/

/-- `Fram` runs with no failure so far on a healthy reference device whose array meets `A`, FCE idle with the identity
validated behind an enabled window; no tick was consumed and `out` is as it was. -/
structure Board (c : Cfg) (ticks : Nat) (out : Byte) (A : Memory → Prop) (s : State) : Prop where
  cfg : s.cfg = c
  cur : s.seq.cur = 4
  mask : s.seq.mask = 0
  idle : s.fce.phase = .idle
  id : s.fce.idValid = true
  window : s.winEn = true
  ticks : s.ticksConsumed = ticks
  out : s.out = out
  dev : ∃ r arr, s.dev = .refDev r ∧ r.Healthy arr ∧ A arr

section
variable {c : Cfg} {ticks : Nat} {out : Byte} {A A' : Memory → Prop} {s : State}

/-- The body goes on. -/
theorem Board.onSeq (h : Board c ticks out A s) {q : Seq} {flag : Bool} {trace : List PeriphEvent} (hcur : q.cur = 4)
    (hmask : q.mask = 0) : Board c ticks out A { s with seq := q, cycleFlag := flag, periphTrace := trace } :=
  { h with cur := hcur, mask := hmask }

theorem Board.mono (h : Board c ticks out A s) (hA : ∀ arr, A arr → A' arr) : Board c ticks out A' s := by
  obtain ⟨r, arr, hdev, hhealthy, harr⟩ := h.dev
  exact { h with dev := ⟨r, arr, hdev, hhealthy, hA arr harr⟩ }

/-- A request of the body that the device serves: the board after it, and what FCE's registers hold (`R`). -/
theorem Board.request {i : Instr} {op : Byte} {o : Operands} {q : Seq} {R : Fce → Prop} (h : Board c ticks out A s)
    (hcur : q.cur = 4) (hmask : q.mask = 0) (hstep : framStep (tickStep s) = (tickStep s).requested op o q)
    (hexec : exec i { tickStep s with seq := q } = .next ((tickStep s).requested op o q))
    (hserved : ∀ r arr, r.Healthy arr → A arr → ∃ g r' arr',
      Leads { tickStep s with seq := q } (acceptance s.cfg.toParams op o s.fce) r (Fce.ended .ok g) r' ∧
      g.idValid = true ∧ r'.Healthy arr' ∧ A' arr' ∧ R g) :
    ∃ n t, Turns n s t ∧ Board c ticks out A' t ∧ t.seq = q ∧ t.fce.done = true ∧ t.fce.result = .ok ∧
      ∃ g, t.fce = Fce.ended .ok g ∧ R g := by
  obtain ⟨r, arr, hdev, hhealthy, hA⟩ := h.dev
  obtain ⟨g, r', arr', hleads, hid, hhealthy', hA', hR⟩ := hserved r arr hhealthy hA
  obtain ⟨events, hcompletes⟩ := hleads.completes (s := { tickStep s with seq := q }) hdev hexec
  refine ⟨_, _, request_turns h.idle h.cur hstep hexec hcompletes, ?_, rfl, rfl, rfl, g, rfl, hR⟩
  exact ⟨h.cfg, hcur, hmask, rfl, hid, h.window, h.ticks, h.out, r', arr', rfl, hhealthy', hA'⟩

end

/-! ### The array between the passes -/

section
variable {c : Cfg} {b b' k k' : Nat} {arr : Memory}

/-- Different bytes of the block table stand at different offsets (R9). -/
theorem blockByte_injective (hb : b < c.numBlocks) (hk : k < blockSize c.toParams b) (hb' : b' < c.numBlocks)
    (hk' : k' < blockSize c.toParams b')
    (heq : blockOffset c.toParams b + k = blockOffset c.toParams b' + k') : b = b' ∧ k = k' := by
  obtain ⟨-, ⟨-, -, -, -, -, -, hdisjoint⟩, -⟩ := cfgOk c
  by_cases hne : b = b'
  · exact ⟨hne, by rw [hne] at heq; omega⟩
  · have hapart := hdisjoint b hb b' hb' hne
    simp only [blockOffset, blockSize] at hapart heq hk hk'
    omega

theorem blockByte_lt (hb : b < c.numBlocks) (hk : k < blockSize c.toParams b) :
    blockOffset c.toParams b + k < c.flashSize := by
  obtain ⟨-, ⟨-, -, -, -, -, hinside, -⟩, -⟩ := cfgOk c
  have hend := (hinside b hb).2
  simp only [blockOffset, blockSize] at hend hk ⊢
  omega

/-- The blocks before `b` are erased. -/
def ErasedBefore (c : Cfg) (b : Nat) (arr : Memory) : Prop :=
  ∀ x < b, ∀ k < blockSize c.toParams x, arr.read (blockOffset c.toParams x + k) = 0xFF

/-- The blocks hold their generated sequences before byte `k` of block `b`, and are erased from there on. -/
def WrittenBefore (c : Cfg) (b k : Nat) (arr : Memory) : Prop :=
  ∀ x < c.numBlocks, ∀ j < blockSize c.toParams x, arr.read (blockOffset c.toParams x + j) =
    if x < b ∨ x = b ∧ j < k then generated c.toParams (BitVec.ofNat 8 x) j else 0xFF

theorem ErasedBefore.next (h : ErasedBefore c b arr) (hb : b < c.numBlocks) :
    ErasedBefore c (b + 1) (RefDev.erasedArray c.toParams b arr) := by
  obtain ⟨hinside, houtside⟩ := RefDev.erasedArray_erased c.toParams b arr
  intro x hx j hj
  by_cases hin : blockOffset c.toParams b ≤ blockOffset c.toParams x + j ∧
      blockOffset c.toParams x + j < blockOffset c.toParams b + blockSize c.toParams b
  · exact hinside _ hin.1 hin.2
  · rw [houtside _ hin]
    refine h x (lt_of_le_of_ne (by omega) ?_) j hj
    rintro rfl
    omega

theorem ErasedBefore.written (h : ErasedBefore c c.numBlocks arr) : WrittenBefore c 0 0 arr := fun x hx j hj => by
  rw [if_neg (by omega)]
  exact h x hx j hj

theorem WrittenBefore.erased_at (h : WrittenBefore c b k arr) (hb : b < c.numBlocks) (hk : k < blockSize c.toParams b) :
    arr.read (blockOffset c.toParams b + k) = 0xFF := by
  rw [h b hb k hk, if_neg (by omega)]

theorem WrittenBefore.write (h : WrittenBefore c b k arr) (hb : b < c.numBlocks) (hk : k < blockSize c.toParams b) :
    WrittenBefore c b (k + 1)
      (arr.write (blockOffset c.toParams b + k) (generated c.toParams (BitVec.ofNat 8 b) k)) := fun x hx j hj => by
  rw [Memory.read_write]
  split_ifs with heq hbefore
  · obtain ⟨rfl, rfl⟩ := blockByte_injective hx hj hb hk heq
    rfl
  · obtain ⟨rfl, rfl⟩ := blockByte_injective hx hj hb hk heq
    omega
  · have hne : ¬(x = b ∧ j = k) := fun ⟨hxb, hjk⟩ => heq (by rw [hxb, hjk])
    rw [h x hx j hj, if_pos (by omega)]
  · rw [h x hx j hj, if_neg (by omega)]

theorem WrittenBefore.next (h : WrittenBefore c b (blockSize c.toParams b) arr) : WrittenBefore c (b + 1) 0 arr :=
  fun x hx j hj => by
  have hbefore : (x < b ∨ x = b ∧ j < blockSize c.toParams b) ↔ (x < b + 1 ∨ x = b + 1 ∧ j < 0) := by
    constructor
    · omega
    · rintro (hlt | ⟨-, hzero⟩)
      · obtain hlt | rfl := Nat.lt_or_eq_of_le (Nat.le_of_lt_succ hlt)
        · exact .inl hlt
        · exact .inr ⟨rfl, hj⟩
      · omega
  rw [h x hx j hj]
  simp only [hbefore]

theorem WrittenBefore.holds (h : WrittenBefore c c.numBlocks 0 arr) (hb : b < c.numBlocks)
    (hk : k < blockSize c.toParams b) :
    arr.read (blockOffset c.toParams b + k) = generated c.toParams (BitVec.ofNat 8 b) k := by
  rw [h b hb k hk, if_pos (.inl hb)]

theorem WrittenBefore.holds_at (h : WrittenBefore c b (k + 1) arr) (hb : b < c.numBlocks)
    (hk : k < blockSize c.toParams b) :
    arr.read (blockOffset c.toParams b + k) = generated c.toParams (BitVec.ofNat 8 b) k := by
  rw [h b hb k hk, if_pos (.inr ⟨rfl, Nat.lt_succ_self k⟩)]

end

/-! ### The places of the body between its requests -/

/-- The body is at `pos` with byte `k` of block `b`, which is not abandoned, and the generator at `g`. -/
structure FramAt (pos : SeqPos) (b k : Nat) (g : Byte) (q : Seq) : Prop where
  at_pos : q.pos = pos
  block : q.b = BitVec.ofNat 8 b
  byte : q.k = k
  generator : q.g = g
  going : q.abort = false

/-- Block `b` of the loop at `pos` is about to be served, whatever the other registers hold. -/
def FramBlockAt (pos : SeqPos) (b : Nat) (q : Seq) : Prop := q.pos = pos ∧ q.b = BitVec.ofNat 8 b

section
variable {c : Cfg} {ticks : Nat} {out : Byte} {b k : Nat}

/-! ### Pass 1 -/

/-- The erase of block `b`. -/
theorem framErase_brings (hb : b < c.numBlocks) (hsize : 0 < blockSize c.toParams b) :
    Brings (fun s => Board c ticks out (ErasedBefore c b) s ∧ FramBlockAt .frErase b s.seq)
      (fun s => Board c ticks out (ErasedBefore c (b + 1)) s ∧ FramBlockAt .frEraseDone b s.seq ∧
        s.fce.done = true ∧ s.fce.result = .ok) := by
  rintro s ⟨h, hpos, hblock⟩
  obtain rfl := h.cfg
  have hnat : (tickStep s).seq.b.toNat = b := hblock ▸ block_toNat s.cfg hb
  obtain ⟨n, t, hrun, hboard, hseq, hdone, hok, -⟩ := h.request (R := fun _ => True) (A' := ErasedBefore s.cfg (b + 1))
    (q := { s.seq with pos := .frEraseDone }) h.cur h.mask (framStep_erase hpos h.idle) (eraseBlock_idle _ _ h.idle)
    fun r arr hhealthy herased => by
      obtain ⟨g, r', hleads, hid, hhealthy'⟩ := erase_healthy
        (s := { tickStep s with seq := { s.seq with pos := .frEraseDone } })
        (f := s.fce.latched s.cfg.toParams 0x02 ⟨(tickStep s).seq.b, 0, 0, 0⟩) h.window hhealthy
        ⟨rfl, hnat.symm ▸ hb, h.id⟩ (hnat.symm ▸ hsize)
      have haccepted := acceptance_erases (c := s.cfg) (o := ⟨(tickStep s).seq.b, 0, 0, 0⟩) (hnat.symm ▸ hb) h.id
      exact ⟨g, r', _, haccepted ▸ hleads, hid, hhealthy', hnat.symm ▸ herased.next hb, trivial⟩
  exact ⟨n, t, hrun, hboard, hseq ▸ ⟨rfl, hblock⟩, hdone, hok⟩

/-! ### The heads of the loops -/

/-- Byte `k` of block `b` is about to be served at `pos`, the generator before it. -/
def ByteAt (c : Cfg) (pos : SeqPos) (b k : Nat) : Seq → Prop :=
  FramAt pos b k (generatorBefore c.toParams (BitVec.ofNat 8 b) k)

/-- The same with the generator past it. -/
def BytePast (c : Cfg) (pos : SeqPos) (b k : Nat) : Seq → Prop :=
  FramAt pos b k (generated c.toParams (BitVec.ofNat 8 b) k)

/-- Pass 2 before byte `k` of block `b`. -/
def ProgramAt (c : Cfg) (ticks : Nat) (out : Byte) (b k : Nat) (s : State) : Prop :=
  Board c ticks out (WrittenBefore c b k) s ∧ ByteAt c .frProgram b k s.seq

/-- Pass 3 before byte `k` of block `b`. -/
def VerifyAt (c : Cfg) (ticks : Nat) (out : Byte) (b k : Nat) (s : State) : Prop :=
  Board c ticks out (WrittenBefore c c.numBlocks 0) s ∧ ByteAt c .frVerify b k s.seq

/-- The passes are done. -/
def DisableAt (c : Cfg) (ticks : Nat) (out : Byte) (s : State) : Prop :=
  Board c ticks out (WrittenBefore c c.numBlocks 0) s ∧ s.seq.pos = .frDisable

/-- Pass 1 before block `b`; after the last one, pass 2 before its first byte. -/
def EraseHead (c : Cfg) (ticks : Nat) (out : Byte) (b : Nat) : State → Prop :=
  if b < c.numBlocks then fun s => Board c ticks out (ErasedBefore c b) s ∧ FramBlockAt .frErase b s.seq
  else ProgramAt c ticks out 0 0

/-- Pass 2 before block `b`; after the last one, pass 3 before its first byte. -/
def ProgramHead (c : Cfg) (ticks : Nat) (out : Byte) (b : Nat) : State → Prop :=
  if b < c.numBlocks then ProgramAt c ticks out b 0 else VerifyAt c ticks out 0 0

/-- Pass 3 before block `b`; after the last one, the disable. -/
def VerifyHead (c : Cfg) (ticks : Nat) (out : Byte) (b : Nat) : State → Prop :=
  if b < c.numBlocks then VerifyAt c ticks out b 0 else DisableAt c ticks out

theorem framWriteBlock_programAt {s : State} (h : Board c ticks out (WrittenBefore c b 0) s)
    (hsize : 0 < blockSize c.toParams b) : ProgramAt c ticks out b 0 (framWriteBlock b s) := by
  obtain rfl := h.cfg
  rw [framWriteBlock, if_pos hsize]
  exact ⟨h.onSeq h.cur h.mask, rfl, rfl, rfl, rfl, rfl⟩

theorem framVerifyBlock_head {s : State} (hbytes : ∀ b < c.numBlocks, 0 < blockSize c.toParams b)
    (h : Board c ticks out (WrittenBefore c c.numBlocks 0) s) : VerifyHead c ticks out b (framVerifyBlock b s) := by
  obtain rfl := h.cfg
  unfold VerifyHead
  split_ifs with hb
  · rw [framVerifyBlock_some (nextBlockWithBytes_eq_some le_rfl hb (hbytes b hb) fun y _ _ => by omega)]
    exact ⟨h.onSeq h.cur h.mask, rfl, rfl, rfl, rfl, rfl⟩
  · rw [framVerifyBlock_none (nextBlockWithBytes_eq_none fun y _ _ => by omega)]
    exact ⟨h.onSeq h.cur h.mask, rfl⟩

/-- An iteration of pass 1. -/
theorem framErase_next (hbytes : ∀ b < c.numBlocks, 0 < blockSize c.toParams b) (hb : b < c.numBlocks) :
    Brings (EraseHead c ticks out b) (EraseHead c ticks out (b + 1)) := by
  rw [EraseHead, if_pos hb]
  refine (framErase_brings hb (hbytes b hb)).trans <|
    Brings.trans (Q := fun s => Board c ticks out (ErasedBefore c (b + 1)) s ∧ FramBlockAt .frEraseWdt b s.seq)
      (.turn ?_) (.turn ?_)
  · rintro s ⟨h, ⟨hpos, hblock⟩, hdone, hok⟩
    refine ⟨h.idle, h.cur, ?_⟩
    rw [framStep_eraseDone (s := tickStep s) hpos hdone, if_pos (by exact hok)]
    exact ⟨h.onSeq h.cur h.mask, rfl, hblock⟩
  · rintro s ⟨h, hpos, hblock⟩
    obtain rfl := h.cfg
    have hnat : s.seq.b.toNat = b := hblock ▸ block_toNat s.cfg hb
    refine ⟨h.idle, h.cur, ?_⟩
    rw [framStep_eraseWdt (s := tickStep s) hpos, EraseHead]
    simp only [tickStep_seq, tickStep_cfg, hnat]
    split_ifs with hnext
    · refine ⟨h.onSeq h.cur h.mask, rfl, ?_⟩
      change s.seq.b + 1 = _
      rw [hblock, BitVec.ofNat_add]
      rfl
    · have hall : b + 1 = s.cfg.numBlocks := by omega
      refine framWriteBlock_programAt (.onSeq (q := s.seq) (h.mono fun arr harr => ?_) h.cur h.mask)
        (hbytes 0 (numBlocks_pos s.cfg))
      rw [hall] at harr
      exact harr.written

/-! ### Pass 2 -/

/-- The program of byte `k` of block `b`. -/
theorem framProgram_brings (hb : b < c.numBlocks) (hk : k < blockSize c.toParams b) :
    Brings (ProgramAt c ticks out b k) (fun s => Board c ticks out (WrittenBefore c b (k + 1)) s ∧
      BytePast c .frProgramDone b k s.seq ∧ s.fce.done = true ∧ s.fce.result = .ok) := by
  rintro s ⟨h, hpos, hblock, hbyte, hgen, hgoing⟩
  obtain rfl := h.cfg
  have haddress : framAddress (tickStep s) = blockOffset s.cfg.toParams b + k := by
    rw [framAddress, framBlock, tickStep_seq, hblock, block_toNat s.cfg hb, hbyte]; rfl
  have hnext : nextG (tickStep s) = generated s.cfg.toParams (BitVec.ofNat 8 b) k := by
    rw [nextG, tickStep_seq, hgen]; exact crc8_generatorBefore _ _
  let q : Seq := { s.seq with g := nextG (tickStep s), pos := .frProgramDone }
  let o : Operands := ⟨0, framAddress (tickStep s), nextG (tickStep s), 0⟩
  have hlt : o.addr < s.cfg.flashSize := haddress.trans_lt (blockByte_lt hb hk)
  obtain ⟨n, t, hrun, hboard, hseq, hdone, hok, -⟩ := h.request (R := fun _ => True) (q := q)
    (A' := WrittenBefore s.cfg b (k + 1)) h.cur h.mask (framStep_program hpos h.idle) (programByte_idle _ _ h.idle)
    fun r arr hhealthy hwritten => by
      have hlatched : (s.fce.latched s.cfg.toParams 0x03 o).addr = blockOffset s.cfg.toParams b + k :=
        (latched_addr s.cfg 0x03 s.fce hlt).trans haddress
      obtain ⟨g, r', hleads, hid, hhealthy'⟩ := program_healthy (s := { tickStep s with seq := q })
        (f := s.fce.latched s.cfg.toParams 0x03 o) h.window hhealthy rfl rfl h.id
        (hlatched ▸ blockByte_lt hb hk) (by
          rw [hlatched, hwritten.erased_at hb hk]
          exact BitVec.allOnes_and)
      rw [hlatched, show (s.fce.latched s.cfg.toParams 0x03 o).val = _ from hnext] at hhealthy'
      exact ⟨g, r', _, acceptance_programs (c := s.cfg) hlt h.id ▸ hleads, hid, hhealthy', hwritten.write hb hk,
        trivial⟩
  exact ⟨n, t, hrun, hboard, hseq ▸ ⟨rfl, hblock, hbyte, hnext, hgoing⟩, hdone, hok⟩

/-- A `READ` of the body, of an offset that holds `v`. -/
theorem Board.read {A : Memory → Prop} {s : State} {q : Seq} {a : Nat} {v : Byte} (h : Board c ticks out A s)
    (hcur : q.cur = 4) (hmask : q.mask = 0)
    (hstep : framStep (tickStep s) = (tickStep s).requested 0x05 ⟨0, a, 0, 0⟩ q) (ha : a < c.flashSize)
    (hv : ∀ arr, A arr → arr.read a = v) :
    ∃ n t, Turns n s t ∧ Board c ticks out A t ∧ t.seq = q ∧ t.fce.done = true ∧ t.fce.rdata = v := by
  obtain rfl := h.cfg
  obtain ⟨n, t, hrun, hboard, hseq, hdone, -, g, hfce, hread⟩ := h.request (R := fun g => g.rdata = v) hcur hmask hstep
    (read_idle _ _ h.idle) fun r arr hhealthy harr => by
      let f : Fce := s.fce.latched s.cfg.toParams 0x05 ⟨0, a, 0, 0⟩
      have hlatched : f.addr = a := latched_addr s.cfg 0x05 s.fce ha
      rw [acceptance_reads (c := s.cfg) ha]
      exact ⟨{ f with rdata := arr.read f.addr }, r, arr,
        read_healthy (f := f) h.window hhealthy (hlatched.trans_lt ha), h.id, hhealthy, harr,
        (congrArg arr.read hlatched).trans (hv arr harr)⟩
  exact ⟨n, t, hrun, hboard, hseq, hdone, by rw [hfce]; exact hread⟩

/-- The body's address of byte `k` of block `b`. -/
theorem framAddress_eq {pos : SeqPos} {g : Byte} {s : State} (hb : b < s.cfg.numBlocks) (h : FramAt pos b k g s.seq) :
    framAddress s = blockOffset s.cfg.toParams b + k := by
  rw [framAddress, framBlock, h.block, block_toNat s.cfg hb, h.byte]

/-- After the program of byte `k` of block `b`: its read-back and the watchdog, and on to the next byte or the reset. -/
theorem framProgram_next (hb : b < c.numBlocks) (hk : k < blockSize c.toParams b) :
    Brings (ProgramAt c ticks out b k) (fun s => Board c ticks out (WrittenBefore c b (k + 1)) s ∧
      if k + 1 < blockSize c.toParams b then ByteAt c .frProgram b (k + 1) s.seq
      else FramBlockAt .frBatchReset b s.seq) := by
  let Past (pos : SeqPos) (s : State) : Prop :=
    Board c ticks out (WrittenBefore c b (k + 1)) s ∧ BytePast c pos b k s.seq
  refine (framProgram_brings hb hk).trans <| Brings.trans (Q := Past .frRead) (.turn ?programDone) <|
    Brings.trans (Q := fun s => Past .frReadDone s ∧ s.fce.done = true ∧
      s.fce.rdata = generated c.toParams (BitVec.ofNat 8 b) k) ?read <|
    Brings.trans (Q := Past .frWriteWdt) (.turn ?readDone) (.turn ?watchdog)
  case programDone =>
    rintro s ⟨h, ⟨hpos, hblock, hbyte, hgen, hgoing⟩, hdone, hok⟩
    refine ⟨h.idle, h.cur, ?_⟩
    rw [framStep_programDone (s := tickStep s) hpos hdone, if_pos (by exact hok)]
    exact ⟨h.onSeq h.cur h.mask, rfl, hblock, hbyte, hgen, hgoing⟩
  case read =>
    rintro s ⟨h, hat⟩
    have ⟨hpos, hblock, hbyte, hgen, hgoing⟩ := hat
    obtain rfl := h.cfg
    obtain ⟨n, t, hrun, hboard, hseq, hdone, hread⟩ := h.read (q := { s.seq with pos := .frReadDone }) h.cur h.mask
      (framStep_read hpos h.idle) ((framAddress_eq hb hat).trans_lt (blockByte_lt hb hk)) fun arr harr =>
        (congrArg arr.read (framAddress_eq hb hat)).trans (harr.holds_at hb hk)
    exact ⟨n, t, hrun, ⟨hboard, hseq ▸ ⟨rfl, hblock, hbyte, hgen, hgoing⟩⟩, hdone, hread⟩
  case readDone =>
    rintro s ⟨⟨h, hpos, hblock, hbyte, hgen, hgoing⟩, hdone, hread⟩
    refine ⟨h.idle, h.cur, ?_⟩
    rw [framStep_readDone (s := tickStep s) hpos hdone, if_pos (by exact hread.trans hgen.symm)]
    exact ⟨h.onSeq h.cur h.mask, rfl, hblock, hbyte, hgen, hgoing⟩
  case watchdog =>
    rintro s ⟨h, hpos, hblock, hbyte, hgen, hgoing⟩
    obtain rfl := h.cfg
    refine ⟨h.idle, h.cur, ?_⟩
    rw [framStep_writeWdt (s := tickStep s) hpos]
    simp only [tickStep_seq, tickStep_cfg, hgoing, hbyte, hblock, block_toNat s.cfg hb, true_and]
    split_ifs
    · exact ⟨h.onSeq h.cur h.mask, rfl, hblock, congrArg (· + 1) hbyte, hgen, hgoing⟩
    · exact ⟨h.onSeq h.cur h.mask, rfl, hblock⟩

/-- The writes of block `b` from its first byte on. -/
theorem framProgram_block (hb : b < c.numBlocks) (hsize : 0 < blockSize c.toParams b) :
    Brings (ProgramAt c ticks out b 0) (fun s => Board c ticks out (WrittenBefore c (b + 1) 0) s ∧
      FramBlockAt .frBatchReset b s.seq) := by
  let I (k : Nat) (s : State) : Prop := Board c ticks out (WrittenBefore c b k) s ∧
    if k < blockSize c.toParams b then ByteAt c .frProgram b k s.seq else FramBlockAt .frBatchReset b s.seq
  have hloop : Brings (I 0) (I (blockSize c.toParams b)) := .iterate fun k hk => by
    simp only [I, if_pos hk]
    exact framProgram_next hb hk
  simp only [I, if_pos hsize, if_neg (lt_irrefl _)] at hloop
  exact hloop.trans (.of_imp fun s ⟨h, hat⟩ => ⟨h.mono fun _ harr => harr.next, hat⟩)

/-- An iteration of pass 2. -/
theorem framProgram_nextBlock (hbytes : ∀ b < c.numBlocks, 0 < blockSize c.toParams b) (hb : b < c.numBlocks) :
    Brings (ProgramHead c ticks out b) (ProgramHead c ticks out (b + 1)) := by
  rw [ProgramHead, if_pos hb]
  refine (framProgram_block hb (hbytes b hb)).trans <| Brings.trans (Q := fun s =>
    Board c ticks out (WrittenBefore c (b + 1) 0) s ∧ FramBlockAt .frBatchResetDone b s.seq ∧ s.fce.done = true)
    ?reset (.turn ?resetDone)
  case reset =>
    rintro s ⟨h, hpos, hblock⟩
    obtain ⟨n, t, hrun, hboard, hseq, hdone, -⟩ := h.request (R := fun _ => True)
      (q := { s.seq with pos := .frBatchResetDone }) h.cur h.mask (framStep_batchReset hpos h.idle)
      (reset_idle _ _ h.idle)
      fun r arr hhealthy harr => ⟨_, r, arr, reset_healthy (f := s.fce.latched s.cfg.toParams 0x06 noOperands)
        h.window hhealthy, h.id, hhealthy, harr, trivial⟩
    exact ⟨n, t, hrun, hboard, hseq ▸ ⟨rfl, hblock⟩, hdone⟩
  case resetDone =>
    rintro s ⟨h, ⟨hpos, hblock⟩, hdone⟩
    obtain rfl := h.cfg
    have hboard : Board s.cfg ticks out (WrittenBefore s.cfg (b + 1) 0) (tickStep s) :=
      h.onSeq (q := s.seq) (trace := s.periphTrace) h.cur h.mask
    refine ⟨h.idle, h.cur, ?_⟩
    rw [framStep_batchResetDone (s := tickStep s) hpos hdone, ProgramHead]
    simp only [tickStep_seq, tickStep_cfg, hblock, block_toNat s.cfg hb]
    split_ifs with hnext
    · exact framWriteBlock_programAt hboard (hbytes _ hnext)
    · have hall : b + 1 = s.cfg.numBlocks := by omega
      have hverify := framVerifyBlock_head (b := 0) hbytes (hall ▸ hboard)
      rwa [VerifyHead, if_pos (numBlocks_pos s.cfg)] at hverify

/-! ### Pass 3 -/

/-- The verification of byte `k` of block `b` and the watchdog, and on to the next byte or the next block. -/
theorem framVerify_next (hbytes : ∀ b < c.numBlocks, 0 < blockSize c.toParams b) (hb : b < c.numBlocks)
    (hk : k < blockSize c.toParams b) :
    Brings (VerifyAt c ticks out b k)
      (if k + 1 < blockSize c.toParams b then VerifyAt c ticks out b (k + 1) else VerifyHead c ticks out (b + 1)) := by
  let Past (pos : SeqPos) (s : State) : Prop :=
    Board c ticks out (WrittenBefore c c.numBlocks 0) s ∧ BytePast c pos b k s.seq
  refine Brings.trans (Q := fun s => Past .frVerifyDone s ∧ s.fce.done = true ∧
      s.fce.rdata = generated c.toParams (BitVec.ofNat 8 b) k) ?read <|
    Brings.trans (Q := Past .frVerifyWdt) (.turn ?verifyDone) (.turn ?watchdog)
  case read =>
    rintro s ⟨h, hat⟩
    have ⟨hpos, hblock, hbyte, hgen, hgoing⟩ := hat
    obtain rfl := h.cfg
    have hnext : nextG (tickStep s) = generated s.cfg.toParams (BitVec.ofNat 8 b) k := by
      rw [nextG, tickStep_seq, hgen]; exact crc8_generatorBefore _ _
    obtain ⟨n, t, hrun, hboard, hseq, hdone, hread⟩ := h.read
      (q := { s.seq with g := nextG (tickStep s), pos := .frVerifyDone }) h.cur h.mask (framStep_verify hpos h.idle) ((framAddress_eq hb hat).trans_lt (blockByte_lt hb hk)) fun arr harr =>
        (congrArg arr.read (framAddress_eq hb hat)).trans (harr.holds hb hk)
    exact ⟨n, t, hrun, ⟨hboard, hseq ▸ ⟨rfl, hblock, hbyte, hnext, hgoing⟩⟩, hdone, hread⟩
  case verifyDone =>
    rintro s ⟨⟨h, hpos, hblock, hbyte, hgen, hgoing⟩, hdone, hread⟩
    refine ⟨h.idle, h.cur, ?_⟩
    rw [framStep_verifyDone (s := tickStep s) hpos hdone, if_pos (by exact hread.trans hgen.symm)]
    exact ⟨h.onSeq h.cur h.mask, rfl, hblock, hbyte, hgen, hgoing⟩
  case watchdog =>
    rintro s ⟨h, hpos, hblock, hbyte, hgen, hgoing⟩
    obtain rfl := h.cfg
    refine ⟨h.idle, h.cur, ?_⟩
    rw [framStep_verifyWdt (s := tickStep s) hpos]
    simp only [tickStep_seq, tickStep_cfg, hgoing, hbyte, hblock, block_toNat s.cfg hb, true_and]
    split_ifs
    · exact ⟨h.onSeq h.cur h.mask, rfl, hblock, congrArg (· + 1) hbyte, hgen, hgoing⟩
    · exact framVerifyBlock_head hbytes (h.onSeq (q := s.seq) h.cur h.mask)

/-- An iteration of pass 3. -/
theorem framVerify_nextBlock (hbytes : ∀ b < c.numBlocks, 0 < blockSize c.toParams b) (hb : b < c.numBlocks) :
    Brings (VerifyHead c ticks out b) (VerifyHead c ticks out (b + 1)) := by
  let I (k : Nat) : State → Prop :=
    if k < blockSize c.toParams b then VerifyAt c ticks out b k else VerifyHead c ticks out (b + 1)
  have hloop : Brings (I 0) (I (blockSize c.toParams b)) := .iterate fun k hk => by
    simp only [I, if_pos hk]
    exact framVerify_next hbytes hb hk
  rw [VerifyHead, if_pos hb]
  simpa only [I, if_pos (hbytes b hb), if_neg (lt_irrefl _)] using hloop

/-! ### The whole body -/

/-- The three passes. -/
theorem framPasses_brings (hbytes : ∀ b < c.numBlocks, 0 < blockSize c.toParams b) :
    Brings (fun s => Board c ticks out (ErasedBefore c 0) s ∧ FramBlockAt .frErase 0 s.seq) (DisableAt c ticks out) := by
  have hpos := numBlocks_pos c
  have herase : Brings (EraseHead c ticks out 0) _ := .iterate fun b hb => framErase_next hbytes hb
  have hprogram : Brings (ProgramHead c ticks out 0) _ := .iterate fun b hb => framProgram_nextBlock hbytes hb
  have hverify : Brings (VerifyHead c ticks out 0) _ := .iterate fun b hb => framVerify_nextBlock hbytes hb
  rw [EraseHead, EraseHead, if_pos hpos, if_neg (lt_irrefl _)] at herase
  rw [ProgramHead, ProgramHead, if_pos hpos, if_neg (lt_irrefl _)] at hprogram
  rw [VerifyHead, VerifyHead, if_pos hpos, if_neg (lt_irrefl _)] at hverify
  exact herase.trans (hprogram.trans hverify)

/-- `IDENTIFY` puts the board in the state the passes start from. -/
theorem framIdentify_board {s : State} {r : RefDev} {arr : Memory} (hpos : s.seq.pos = .frIdentify)
    (hcur : s.seq.cur = 4) (hmask : s.seq.mask = 0) (hidle : s.fce.phase = .idle) (hwin : s.winEn = true)
    (hdev : s.dev = .refDev r) (hhealthy : r.Healthy arr) (hmfr : r.simMfr = s.cfg.manufacturer)
    (hsim : r.simDev = s.cfg.deviceCode) :
    ∃ n t, Turns n s t ∧ Board s.cfg s.ticksConsumed s.out (ErasedBefore s.cfg 0) t ∧ FramBlockAt .frErase 0 t.seq := by
  let q : Seq := { s.seq with pos := .frIdentifyDone }
  obtain ⟨g, hleads, hid⟩ := identify_healthy (s := { tickStep s with seq := q })
    (f := s.fce.latched s.cfg.toParams 0x01 noOperands) hwin hhealthy hmfr hsim
  have hexec := identify_idle noOperands { tickStep s with seq := q } hidle
  obtain ⟨events, hcompletes⟩ := hleads.completes hdev hexec
  have hrequest := request_turns hidle hcur (framStep_identify hpos hidle) hexec hcompletes
  let w : State := onDevice { tickStep s with seq := q } (Fce.ended .ok g) r events
  have hanswer : Turns 1 w { w with seq := { q with b := 0, pos := .frErase } } :=
    .fram rfl hcur ((framStep_identifyDone (s := tickStep w) rfl rfl).trans (by rw [if_pos (by rfl)]; rfl))
  exact ⟨_, _, hrequest.trans hanswer, ⟨rfl, hcur, hmask, rfl, hid, hwin, rfl, rfl, r, arr, rfl, hhealthy,
    fun x hx => absurd hx (Nat.not_lt_zero x)⟩, rfl, rfl⟩

end

/-- Settles O60: the entry, the enable, `IDENTIFY`, the three passes, the disable, the return. -/
theorem framPassesOnAHealthyBoard : Obligations.FramPassesOnAHealthyBoard := by
  unfold Obligations.FramPassesOnAHealthyBoard
  rintro s r ⟨hcur, hp, hidle⟩ hdev hmode hcpos hdraws hmfr hsim hbytes
  let t : State := { s with
    seq := { s.seq with outcome := .noError, mask := 0, pos := .frEnable }, dispatchTrace := s.dispatchTrace ++ [4] }
  have hentry : Turns 1 s t := .body (self := .fram) hidle hcur true (bodyStep_dispatch (s := tickStep s) .fram hp)
  let u : State := { t with
    seq := { t.seq with pos := .frIdentify }, winEn := true, periphTrace := s.periphTrace ++ [.flashWindow true] }
  have henable : Turns 1 t u := .body (self := .fram) hidle hcur true (framStep_enable (s := tickStep t) rfl)
  have hhealthy : r.Healthy r.arr := { mode := hmode, cpos := hcpos, arr := rfl, opDraws := hdraws }
  obtain ⟨_, v, hidentify, hv⟩ := framIdentify_board (s := u) rfl hcur rfl hidle rfl hdev hhealthy hmfr hsim
  obtain ⟨_, w, hpasses, ⟨hboard, hpos⟩⟩ := framPasses_brings hbytes v hv
  have hdisable := Turns.fram hboard.idle hboard.cur (framStep_disable (s := tickStep w) hpos)
  have hall := (((hentry.trans henable).trans hidentify).trans hpasses).trans hdisable
  obtain ⟨r', arr, hdev', hhealthy', hwritten⟩ := hboard.dev
  refine ⟨_, _, r', hall.returns (self := .fram) (o := .noError) ?_ hboard.idle hboard.cur, rfl, rfl, rfl, hboard.mask,
    rfl, hboard.ticks, hboard.out, hdev', fun b hb k hk => ?_⟩
  · exact if_neg (not_not.2 hboard.mask)
  · rw [hhealthy'.arr]
    exact hwritten.holds hb hk

end Sys2Proof.Machine
end

section
/-! PROOFS. Reset in operation: what the reset line's step leaves and keeps (R230, R231). -/

namespace Sys2Proof.Machine

/-- The reset line runs no instruction: its step is the reset, from every state (R231). -/
theorem agentStep_resetLine (s : State) : agentStep .resetLine s = .next (hwReset s) := rfl

/-- Settles O7: the reset line's step is `hwReset`, field by field. -/
theorem resetLineForgetsTheOperation : Obligations.ResetLineForgetsTheOperation := by
  unfold Obligations.ResetLineForgetsTheOperation
  intro s
  exact ⟨hwReset s, agentStep_resetLine s, hwReset_fce s, hwReset_seq s,
    hwReset_cycleFlag s, hwReset_out s, hwReset_winEn s, hwReset_extEn s,
    hwReset_busTrace s, hwReset_periphTrace s, hwReset_outTrace s,
    hwReset_dev s, hwReset_periph s, hwReset_cfg s⟩

end Sys2Proof.Machine
end
